-- ==== Sys2Proof/Word.lean ====
section
/-! DEFINITION. The word types of the block: a byte and a 24-bit bus address (00_scope R6, 20_memory R41). -/

namespace Sys2Proof

/-- One byte of the bus, of a memory or of a register (20_memory R40). -/
abbrev Byte := BitVec 8

/-- A bus address, `ADDR_BITS` = 24 bits (20_memory R41). -/
abbrev Addr := BitVec 24

/-- The handle by which a backing image is named (10_state, second table of section 1). -/
abbrev Handle := Nat

end Sys2Proof
end

