-- ==== Sys2Proof/Config.lean ====
section
/-! DEFINITION. The configuration record `Cfg` (00_scope R5), the vocabulary of the environment's inputs
(10_state R33) and the free values an input takes where nothing is lined up for it (log 3). -/

namespace Sys2Proof

/-- A memory: the bytes that differ from what an unlisted address reads as, addresses strictly rising. -/
abbrev Memory := List Host.Cell

/-- The external device windows of the map (20_memory R47, R52). -/
inductive ExtWindow where
  | videoMem | crtcVc | dmacRegs | areaSet | mfp | printer | sysportOther | sound | fdc | ioMisc | expansion
  deriving DecidableEq, Repr, Inhabited

/-- The kinds of region of the map (20_memory R47). -/
inductive RegionKind where
  | ram | unmapped | ext (x : ExtWindow) | rtc | sysport | sasi | scsiRom | sram | cgRom | bootRom
  deriving DecidableEq, Repr, Inhabited

/-- One row of the region table `MAP`: the addresses `lo` to `hi` inclusive (20_memory R47). -/
structure Region where
  lo : Nat
  hi : Nat
  kind : RegionKind
  deriving DecidableEq, Repr, Inhabited

/-- A read-only image of `len` bytes: byte `i` is the one listed in `cells`, else `fill` (20_memory R49). -/
structure Rom where
  len : Nat
  fill : Byte
  cells : List Host.Cell
  deriving DecidableEq, Repr, Inhabited

/-- One row of the video-mode table: `LINES`, `FRAME_BASE_CYCLES`, `VDISP_START`, `VDISP_END`, `IDEAL_MS`
and `FASTCLR_FRAMES` of one mode (00_scope R5). -/
structure VideoMode where
  mode : BitVec 8
  lines : Nat
  frameBaseCycles : Nat
  vdispStart : Nat
  vdispEnd : Nat
  idealMs : Nat
  fastclrFrames : Nat
  deriving DecidableEq, Repr, Inhabited

/-- The peripheral a DMA channel serves, `DMA_OWNER[c]` (43_dma R145). -/
inductive DmaOwner where
  | fdc | sasi | ext
  deriving DecidableEq, Repr, Inhabited

/-- The configuration record of 00_scope R5, an operand of `POWER_ON` and constant afterwards. Every
parameter the spec leaves open is a field here. -/
structure Cfg where
  openBus : Byte
  ramSize : Nat
  map : List Region
  bootRom : Option Rom
  cgRom : Option Rom
  scsiRom : Rom
  clockMult : Nat
  modes : List VideoMode
  quantum : Nat
  overrunMax : Nat
  keyDiv : Nat
  mouseDiv : Nat
  frameskipMax : Nat
  /-- `PRIO(s)` by source id (42_interrupt R136). -/
  prio : Vector Nat 9
  /-- `VEC`: one vector per source, or none where the callback is left open (42_interrupt R134, log 9). -/
  vec : Option (Vector Byte 9)
  dmaCost : Vector Nat 3
  dmaOwner : Vector DmaOwner 3
  /-- `HD[2d+u]`: the backing image of unit u of SASI device d (10_state R18). -/
  hd : Vector (Option Handle) 16
  sasiErrIo : Byte
  sasiErrInvalid : Byte
  sasiIrqPerByte : Bool
  numFdd : Nat
  fddSectorSize : Nat
  rtcPeriodA : Nat
  rtcPeriodB : Nat
  rtcHiNibble : BitVec 4
  deriving DecidableEq, Repr, Inhabited

/-- The two modes of the snapshot port (46_snapshot R236). -/
inductive SnapMode where
  | fast | durable
  deriving DecidableEq, Repr, Inhabited

/-- The nine interrupt sources (30_encoding R81), in the order of their ids. -/
inductive Src where
  | sasi | fdc | mfpTimer | vblankStart | vblankEnd | raster | key | mouse | rtc
  deriving DecidableEq, Repr, Inhabited

/-- A calendar time of `HOSTCLK.now`, each part in the range of 45_peripheral R213. `day` and `month`
count from 0. -/
structure CalTime where
  second : Fin 60
  minute : Fin 60
  hour : Fin 24
  weekday : Fin 7
  day : Fin 31
  month : Fin 12
  year : Fin 100
  deriving DecidableEq, Repr, Inhabited

/-- What an external device may do to the block: the `EXT_EVENT` inputs of 10_state R33, and the
`DMA.START` of the DMA controller's register window (43_dma R140). -/
inductive ExtEvent where
  | irqRequest (s : Src)
  | fastclrRequest
  | fddReadSector (d lba : Nat)
  | fddWriteSector (d lba : Nat) (bs : List Byte)
  | dmaStart (c : BitVec 2) (src dst : Addr) (count : BitVec 16) (sstep dstep : BitVec 2)
  deriving DecidableEq, Repr, Inhabited

/-- One operation the CPU backend issues inside a slice (41_scheduler R110 (b)). -/
inductive BackendOp where
  | rd8 (a : Addr)
  | wr8 (a : Addr) (v : Byte)
  | rd16 (a : Addr)
  | wr16 (a : Addr) (v : BitVec 16)
  | rd32 (a : Addr)
  | wr32 (a : Addr) (v : BitVec 32)
  | dmaStart (c : BitVec 2) (src dst : Addr) (count : BitVec 16) (sstep dstep : BitVec 2)
  deriving DecidableEq, Repr, Inhabited

/-- The backend's whole answer to one `execute`: its operations, and the cycles it reports before they are
brought into the range of 41_scheduler R110. -/
structure BackendTurn where
  ops : List BackendOp
  consumed : Nat
  deriving DecidableEq, Repr, Inhabited

namespace Config

/-- `BASE_MULT` = 10 (41_scheduler R102). -/
def baseMult : Nat := 10

/-- `SASI_SENSE_LEN` = 4 (44_sasi R180). -/
def sasiSenseLen : Nat := 4

/-- `SASI_VENDOR_LEN` = 10 (44_sasi R181). -/
def sasiVendorLen : Nat := 10

/-! The free values: what the environment answers at the n-th draw where no answer is lined up
(00_scope R7, `draw x in S`; log 3). They have no body: nothing can be proved of their values. -/

/-- `VIDEO_IN.video_mode`, sampled at `FRAME_START` (41_scheduler R101). -/
opaque freeVideoMode : Nat → BitVec 8
/-- `VIDEO_IN.raster_line`, sampled at each `LINE_START` (41_scheduler R107). -/
opaque freeRasterLine : Nat → BitVec 16
/-- `HOSTCLK.elapsed_ms`, drawn at `FRAME_END` (41_scheduler R120). -/
opaque freeElapsedMs : Nat → BitVec 32
/-- `HOSTCLK.now`, drawn at each read of a live RTC register (45_peripheral R213). -/
opaque freeNow : Nat → CalTime
/-- `DMA_RDY.ready[c]`, drawn once in a `DMA.STEP` of a channel with an external owner (43_dma R145, 93 U10, log 8). -/
opaque freeReady : Nat → Bool
/-- The byte an EXT window answers (40_bus R99). -/
opaque freeExtByte : Nat → Byte
/-- The events an external device injects (40_bus R99, 41_scheduler R126). -/
opaque freeExtEvents : Nat → List ExtEvent
/-- The CPU backend's answer to `execute` (41_scheduler R110). -/
opaque freeBackend : Nat → BackendTurn
/-- `sasi.blocks - 1` where `sasi.blocks` is 0, to which the arithmetic of 00_scope R6 on naturals gives no value
(log 29). -/
opaque freeBlocks : BitVec 16
/-- `dma[c].count - 1` where `dma[c].count` is 0, to which 00_scope R6 gives no value (log 29). -/
opaque freeCount : BitVec 16
/-- `clk.count - clk.budget` of a count and a larger budget, to which 00_scope R6 gives no value (log 29). -/
opaque freeCarry : BitVec 32 → BitVec 32 → BitVec 32
/-- `BE32(n)` of a length of 2^32 or more, to which 30_encoding R85 gives no four bytes (log 30). -/
opaque freeLength : Nat → BitVec 32

end Config

end Sys2Proof
end

