-- ==== Sys2Proof/Syntax.lean ====
section
/-! DEFINITION. The 81 operations of `spec/opcode_table.json`, one constructor each, and the request words
in which they are asked for (30_encoding R70 to R89). -/

namespace Sys2Proof

/-- The fields of a SASI command block after its opcode byte (30_encoding R76): the two ignored bits of
byte 1, the unit bit, the 21-bit sector, the block count byte and the control byte. -/
structure Cdb where
  ignored : BitVec 2
  unit : BitVec 1
  sector : BitVec 21
  blocks : BitVec 8
  control : BitVec 8
  deriving DecidableEq, Repr, Inhabited

/-- The operations of the block. A read operation of a port carries the address only where the port's row
of the opcode table covers more than one address. -/
inductive Instr where
  -- HOST (30_encoding R71)
  | powerOn (cfg : Cfg) (ramInit sramInit : Memory)
  | shutdown
  | reset
  | runFrame
  | save (mode : SnapMode)
  | load (mode : SnapMode) (buf : List Byte)
  | hostBusRd (a : Addr)
  | hostBusWr (a : Addr) (v : Byte)
  | fddInsert (d : Nat) (h : Handle)
  | fddEject (d : Nat)
  | fddGetImage (d : Nat)
  | fddSetImage (d : Nat) (h : Option Handle)
  | fddIsReading (d : Nat)
  -- BUS (30_encoding R72, 40_bus R90 to R95)
  | busRd8 (a : Addr)
  | busWr8 (a : Addr) (v : Byte)
  | busRd16 (a : Addr)
  | busWr16 (a : Addr) (v : BitVec 16)
  | busRd32 (a : Addr)
  | busWr32 (a : Addr) (v : BitVec 32)
  -- PORT (30_encoding R73)
  | sasiDataRd
  | sasiDataWr (v : Byte)
  | sasiStatusRd
  | sasiAckselWr (v : Byte)
  | sasiResetWr (v : Byte)
  | sasiSelectWr (v : Byte)
  | sysportSramweWr (v : Byte)
  | rtcRegRd (a : Addr)
  | rtcRegWr (a : Addr) (v : Byte)
  | ramRd (a : Addr)
  | ramWr (a : Addr) (v : Byte)
  | romRd (a : Addr)
  | scsiromRd (a : Addr)
  | sramRd (a : Addr)
  | sramWr (a : Addr) (v : Byte)
  | unmappedRd (a : Addr)
  | unmappedWr (a : Addr) (v : Byte)
  | extRd (a : Addr)
  | extWr (a : Addr) (v : Byte)
  -- PHASE (30_encoding R74)
  | sasiCmdbyte (v : Byte)
  | sasiDataout (v : Byte)
  | sasiVendorbyte (v : Byte)
  | sasiViolationWr (v : Byte)
  | sasiNopWr (v : Byte)
  | sasiDatain
  | sasiStatusbyte
  | sasiMsgbyte
  | sasiSensebyte
  | sasiViolationRd
  | sasiNopRd
  -- CDB6 (30_encoding R76, R77)
  | sasiCmdTestReady (b : Cdb)
  | sasiCmdRecalibrate (b : Cdb)
  | sasiCmdRequestSense (b : Cdb)
  | sasiCmdFormat (b : Cdb)
  | sasiCmdRead (b : Cdb)
  | sasiCmdWrite (b : Cdb)
  | sasiCmdSeek (b : Cdb)
  | sasiCmdVendorC2 (b : Cdb)
  | sasiCmdUnsupported (op : Byte) (b : Cdb)
  -- SEQ (30_encoding R89)
  | frameStart
  | lineStart
  | slice
  | lineEnd
  | frameEnd
  -- IRQ (30_encoding R81)
  | irqRequest (s : BitVec 4)
  | irqResolve
  -- DMA (30_encoding R82)
  | dmaStart (c : BitVec 2) (src dst : Addr) (count : BitVec 16) (sstep dstep : BitVec 2)
  | dmaStep (c : BitVec 2) (used : BitVec 32)
  | dmaXfer (c : BitVec 2)
  | dmaComplete (c : BitVec 2)
  -- EVT (30_encoding R71)
  | fastclrRequest
  | fddReadSector (d lba : Nat)
  | fddWriteSector (d lba : Nat) (bs : List Byte)
  -- TICK (30_encoding R71)
  | timersTick (used : BitVec 32)
  | rtcTick (used : BitVec 32)
  -- INTERNAL
  | sasiExecute
  | sasiEnterStatus
  | imgRead (h : Option Handle) (off n : Nat)
  | imgWrite (h : Option Handle) (off : Nat) (bs : List Byte)
  | imgOk (h : Option Handle) (off n : Nat)
  | fastclrResolve
  | frameskipAdapt (elapsedMs : BitVec 32)
  deriving DecidableEq, Repr

/-- A typed argument of an operation (30_encoding R71: "4-bit op code plus typed arguments"). -/
inductive Arg where
  | nat (n : Nat)
  | handle (h : Option Handle)
  | bytes (bs : List Byte)
  | snap (m : SnapMode)
  | cfg (c : Cfg)
  | mem (m : Memory)
  deriving DecidableEq, Repr

/-- An operation as it is asked for, before it is decoded: the word of its format (30_encoding R70) with
the arguments the word does not carry. The spec gives no bits that tell the operations of the formats IRQ,
DMA, TICK and INTERNAL apart; the selector fields there are the model's own (log 1). -/
inductive Request where
  /-- The 4-bit HOST code and its typed arguments (R71). -/
  | host (code : BitVec 4) (args : List Arg)
  /-- One 33-bit transaction word, or the two or four words of a wider access (R72, R88). -/
  | bus (words : List (BitVec 33))
  /-- The 25-bit key `(rw, addr)` and the data byte of a write (R73). -/
  | port (key : BitVec 25) (v : Byte)
  /-- The 6-bit key `(rw, phase, sasi.rw)` and the data byte of a write (R74). -/
  | phase (key : BitVec 6) (v : Byte)
  /-- The 48-bit command block, byte 0 most significant (R76). -/
  | cdb6 (block : BitVec 48)
  /-- The 3-bit sequencing code (R89). -/
  | seq (code : BitVec 3)
  /-- A source id to request, or none for the resolution point (R81). -/
  | irq (s : Option (BitVec 4))
  /-- Selector 0 START, 1 STEP, 2 XFER, 3 COMPLETE; the channel; the arguments (R82). -/
  | dma (op c : BitVec 2) (args : List Nat)
  /-- The 2-bit event code and its arguments (R71). -/
  | evt (code : BitVec 2) (args : List Arg)
  /-- Selector 0 TIMERS.TICK, 1 RTC.TICK; the base cycles (R71). -/
  | tick (op : BitVec 1) (used : Nat)
  /-- Selector 0 to 6 in the order of the opcode table; the arguments. -/
  | internal (op : BitVec 3) (args : List Arg)
  deriving DecidableEq, Repr

/-- The eight phases of the SASI controller (30_encoding R74). The reserved codes have no constructor:
no rule produces one (30_encoding R86, 10_state R19). -/
inductive Phase where
  | busFree | selection | command | data | status | message | senseStatus | vendorInit
  deriving DecidableEq, Repr, Inhabited

/-- The five values of `sched.seq` (30_encoding R89). The reserved codes have no constructor: they are
never taken (10_state R12). -/
inductive Seq where
  | idle | lineStart | slice | lineEnd | frameEnd
  deriving DecidableEq, Repr, Inhabited

/-- The port operation a bus transaction decodes to (30_encoding R73). -/
inductive PortOp where
  | sasiDataRd | sasiDataWr | sasiStatusRd | sasiAckselWr | sasiResetWr | sasiSelectWr
  | sysportSramweWr | rtcRegRd | rtcRegWr | ramRd | ramWr | romRd | scsiromRd | sramRd | sramWr
  | unmappedRd | unmappedWr | extRd (x : ExtWindow) | extWr (x : ExtWindow)
  deriving DecidableEq, Repr

/-- The operation a transaction at the SASI data port is (30_encoding R74). -/
inductive PhaseOp where
  | cmdbyte | dataout | vendorbyte | violationWr | nopWr
  | datain | statusbyte | msgbyte | sensebyte | violationRd | nopRd
  deriving DecidableEq, Repr

/-- The command a SASI command block is (30_encoding R77). -/
inductive CmdOp where
  | testReady | recalibrate | requestSense | format | read | write | seek | vendorC2 | unsupported
  deriving DecidableEq, Repr

/-- The formats of 30_encoding R70, and the table's INTERNAL. -/
inductive Format where
  | host | bus | port | phase | cdb6 | seq | irq | dma | evt | tick | internal
  deriving DecidableEq, Repr

end Sys2Proof
end

