-- ==== Sys2Proof/Machine/Codes.lean ====
section
/-! DEFINITION. The code tables of 30_encoding, the default map of 20_memory R47, the decode of a bus
transaction to a port (R73), of a data-port transaction to a phase operation (R74) and of a command block
to a command (R77). -/

namespace Sys2Proof

/-- The 4-bit code of a phase (30_encoding R74). -/
def Phase.code : Phase → BitVec 4
  | .busFree => 0 | .selection => 1 | .command => 2 | .data => 3
  | .status => 4 | .message => 5 | .senseStatus => 9 | .vendorInit => 10

/-- The phase of a 4-bit code, none for a reserved one (30_encoding R86). -/
def Phase.ofCode (c : BitVec 4) : Option Phase :=
  match c.toNat with
  | 0 => some .busFree | 1 => some .selection | 2 => some .command | 3 => some .data
  | 4 => some .status | 5 => some .message | 9 => some .senseStatus | 10 => some .vendorInit
  | _ => none

/-- The 3-bit code of `sched.seq` (30_encoding R89). -/
def Seq.code : Seq → BitVec 3
  | .idle => 0 | .lineStart => 1 | .slice => 2 | .lineEnd => 3 | .frameEnd => 4

/-- The nine sources in the order of their ids (30_encoding R81). -/
def Src.all : List Src :=
  [.sasi, .fdc, .mfpTimer, .vblankStart, .vblankEnd, .raster, .key, .mouse, .rtc]

/-- The id of a source (30_encoding R81). -/
def Src.id : Src → Fin 9
  | .sasi => 0 | .fdc => 1 | .mfpTimer => 2 | .vblankStart => 3 | .vblankEnd => 4
  | .raster => 5 | .key => 6 | .mouse => 7 | .rtc => 8

/-- The source of a 4-bit id, none for the reserved ids 9 to 15 (30_encoding R81, R86). -/
def Src.ofId (s : BitVec 4) : Option Src :=
  Src.all[s.toNat]?

/-- The default region table (20_memory R47). The row above the fitted RAM is absent where RAM fills its
whole range. -/
def defaultMap (ramSize : Nat) : List Region :=
  ⟨0, ramSize - 1, .ram⟩ ::
  ((if ramSize < 0xC00000 then [⟨ramSize, 0xBFFFFF, .unmapped⟩] else []) ++
  [⟨0xC00000, 0xE7FFFF, .ext .videoMem⟩,
   ⟨0xE80000, 0xE83FFF, .ext .crtcVc⟩,
   ⟨0xE84000, 0xE85FFF, .ext .dmacRegs⟩,
   ⟨0xE86000, 0xE87FFF, .ext .areaSet⟩,
   ⟨0xE88000, 0xE89FFF, .ext .mfp⟩,
   ⟨0xE8A000, 0xE8BFFF, .rtc⟩,
   ⟨0xE8C000, 0xE8DFFF, .ext .printer⟩,
   ⟨0xE8E000, 0xE8FFFF, .sysport⟩,
   ⟨0xE90000, 0xE93FFF, .ext .sound⟩,
   ⟨0xE94000, 0xE95FFF, .ext .fdc⟩,
   ⟨0xE96000, 0xE97FFF, .sasi⟩,
   ⟨0xE98000, 0xE9FFFF, .ext .ioMisc⟩,
   ⟨0xEA0000, 0xEA1FFF, .scsiRom⟩,
   ⟨0xEA2000, 0xECFFFF, .ext .expansion⟩,
   ⟨0xED0000, 0xED3FFF, .sram⟩,
   ⟨0xED4000, 0xEFFFFF, .unmapped⟩,
   ⟨0xF00000, 0xFBFFFF, .cgRom⟩,
   ⟨0xFC0000, 0xFDFFFF, .unmapped⟩,
   ⟨0xFE0000, 0xFFFFFF, .bootRom⟩])

/-- The region of an address: the first row that holds it (20_memory R47). -/
def regionAt (map : List Region) (a : Addr) : Option Region :=
  map.find? fun r => decide (r.lo ≤ a.toNat ∧ a.toNat ≤ r.hi)

/-- The kind of region an address lies in. An address no row holds is unmapped: reads and writes are total
(20_memory R40). -/
def kindAt (map : List Region) (a : Addr) : RegionKind :=
  ((regionAt map a).map Region.kind).getD .unmapped

/-- The place of an address inside its region, `addr - lo` (20_memory R47, R49). -/
def offsetAt (map : List Region) (a : Addr) : Nat :=
  a.toNat - ((regionAt map a).map Region.lo).getD 0

/-- The port operation of a transaction with no handler (40_bus R98). -/
def unmappedOp (rw : Bool) : PortOp := if rw then .unmappedWr else .unmappedRd

/-- The port operation of a transaction in the SASI window: data at 1, status and select-acknowledge at 3,
reset at 5, select at 7; every other address is unused (30_encoding R73, 20_memory R51). -/
def sasiPort (rw : Bool) (off : Nat) : PortOp :=
  if off = 1 then (if rw then .sasiDataWr else .sasiDataRd)
  else if off = 3 then (if rw then .sasiAckselWr else .sasiStatusRd)
  else if off = 5 ∧ rw then .sasiResetWr
  else if off = 7 ∧ rw then .sasiSelectWr
  else unmappedOp rw

/-- The port operation of a transaction in a region of a kind, at an offset (30_encoding R73). In the
system-port window only offset 0xD is the block's (45_peripheral R216). -/
def portOf (kind : RegionKind) (rw : Bool) (off : Nat) (a : Addr) : PortOp :=
  match kind with
  | .sasi => sasiPort rw off
  | .sysport =>
    if off = 0xD then (if rw then .sysportSramweWr else .unmappedRd)
    else if rw then .extWr .sysportOther else .extRd .sysportOther
  | .rtc => if a.getLsbD 0 then (if rw then .rtcRegWr else .rtcRegRd) else unmappedOp rw
  | .ram => if rw then .ramWr else .ramRd
  | .bootRom | .cgRom => if rw then .unmappedWr else .romRd
  | .scsiRom => if rw then .unmappedWr else .scsiromRd
  | .sram => if rw then .sramWr else .sramRd
  | .ext x => if rw then .extWr x else .extRd x
  | .unmapped => unmappedOp rw

/-- `PORT_DECODE(rw, addr)` (30_encoding R73): which handler a transaction reaches. `rw` is true for a
write. -/
def portDecode (map : List Region) (rw : Bool) (a : Addr) : PortOp :=
  portOf (kindAt map a) rw (offsetAt map a) a

/-- The PHASE decode of a data-port transaction (30_encoding R74). `rw` is true for a write, `toMaster` is
`sasi.rw`. -/
def phaseOpOf (rw : Bool) (p : Phase) (toMaster : Bool) : PhaseOp :=
  match rw, p with
  | true, .command => .cmdbyte
  | true, .data => if toMaster then .violationWr else .dataout
  | true, .vendorInit => .vendorbyte
  | true, .senseStatus => .violationWr
  | true, .busFree | true, .selection | true, .status | true, .message => .nopWr
  | false, .data => if toMaster then .datain else .violationRd
  | false, .status => .statusbyte
  | false, .message => .msgbyte
  | false, .senseStatus => .sensebyte
  | false, .command | false, .vendorInit => .violationRd
  | false, .busFree | false, .selection => .nopRd

/-- The opcode map of the command block (30_encoding R77): the whole byte is compared. -/
def cmdOpOf (op : Byte) : CmdOp :=
  match op.toNat with
  | 0x00 => .testReady
  | 0x01 => .recalibrate
  | 0x03 => .requestSense
  | 0x04 => .format
  | 0x08 => .read
  | 0x0A => .write
  | 0x0B => .seek
  | 0xC2 => .vendorC2
  | _ => .unsupported

/-- The 48 bits of a command block, byte 0 most significant (30_encoding R76). -/
def Cdb.block (op : Byte) (b : Cdb) : BitVec 48 :=
  op ++ b.ignored ++ b.unit ++ b.sector ++ b.blocks ++ b.control

/-- The fields of a 48-bit command block (30_encoding R76). -/
def Cdb.ofBlock (w : BitVec 48) : Cdb :=
  { ignored := w.extractLsb' 38 2, unit := w.extractLsb' 37 1, sector := w.extractLsb' 16 21,
    blocks := w.extractLsb' 8 8, control := w.extractLsb' 0 8 }

/-- Byte `i` of a 48-bit command block, byte 0 first (30_encoding R76). -/
def blockByte (w : BitVec 48) (i : Nat) : Byte := w.extractLsb' (40 - 8 * i) 8

/-- Whether a byte array is in the form the model keeps memories in: addresses strictly rising from the given one
and below `size`, no byte equal to what an unlisted one reads as. -/
def Memory.wfFrom (unlisted : Byte) (size : Nat) : Nat → Memory → Bool
  | _, [] => true
  | lo, (a, v) :: m => decide (lo ≤ a ∧ a < size) && (v != unlisted) && Memory.wfFrom unlisted size (a + 1) m

/-- What an address of RAM, SRAM or a backing image that no entry lists reads as: 0x00 (log 4). -/
def Memory.unlisted : Byte := 0

/-- The canonical form of a memory of `size` bytes. -/
def Memory.wf (size : Nat) (m : Memory) : Bool := Memory.wfFrom Memory.unlisted size 0 m

/-- The number of bytes of SRAM (10_state R22). -/
def sramSize : Nat := 0x4000

end Sys2Proof
end

