-- ==== Sys2Proof/WellFormed.lean ====
section
/-! DEFINITION. When a configuration is well formed (00_scope R5) and when the operands of an operation are
in the sets its rule names. -/

namespace Sys2Proof

/-- `BUDGET(mode)`, the CPU cycles of a frame (41_scheduler R102). -/
def Cfg.budget (c : Cfg) (m : VideoMode) : Nat := m.frameBaseCycles * c.clockMult / Config.baseMult

/-- The row of the mode table for a mode, none where the table does not define it (U9). -/
def Cfg.videoMode? (c : Cfg) (m : BitVec 8) : Option VideoMode := c.modes.find? fun r => r.mode == m

/-- The constraints of 00_scope R5 on one video mode. -/
def VideoMode.wf (c : Cfg) (m : VideoMode) : Bool :=
  decide (1 ≤ m.lines ∧ m.lines < 2 ^ 16 ∧ m.lines ≤ m.frameBaseCycles ∧ 1 ≤ m.idealMs ∧
    1 ≤ m.fastclrFrames ∧ m.fastclrFrames ≤ 3 ∧ c.overrunMax ≤ c.budget m / m.lines)

/-- A region in its place by address. -/
def insertRegion (r : Region) : List Region → List Region
  | [] => [r]
  | q :: qs => if r.lo ≤ q.lo then r :: q :: qs else q :: insertRegion r qs

/-- The rows of a map by address, in whatever order it lists them. -/
def sortRegions : List Region → List Region
  | [] => []
  | r :: rs => insertRegion r (sortRegions rs)

/-- The rows of a map that hold an address. A row with `hi < lo`, such as the second one of 20_memory R47 where RAM
fills its whole range, holds none: it overlaps nothing and covers nothing (log 17). -/
def inhabitedRows (map : List Region) : List Region := map.filter fun r => decide (r.lo ≤ r.hi)

/-- Regions that follow each other without gap or overlap, from `lo` to 0xFFFFFF (20_memory R47). -/
def mapCovers : Nat → List Region → Bool
  | lo, [] => decide (lo = 0x1000000)
  | lo, r :: rs => decide (r.lo = lo ∧ lo ≤ r.hi) && mapCovers (r.hi + 1) rs

/-- A region lies inside the array it names (20_memory R47, R49, log 17). -/
def Region.wf (ramSize : Nat) (r : Region) : Bool :=
  match r.kind with
  | .ram => decide (r.hi < ramSize)
  | .sram => decide (r.hi - r.lo < sramSize)
  | .bootRom => decide (r.hi - r.lo < 0x20000)
  | .cgRom => decide (r.hi - r.lo < 0xC0000)
  | _ => true

/-- The map's constraint (20_memory R47): no overlap and full cover, in any order of the rows; a row that holds no
address does not count. -/
def mapWf (ramSize : Nat) (map : List Region) : Bool :=
  mapCovers 0 (sortRegions (inhabitedRows map)) && (inhabitedRows map).all (Region.wf ramSize)

/-- `PRIO` is injective and keeps the class order (42_interrupt R136). -/
def prioWf (p : Vector Nat 9) : Bool :=
  decide p.toList.Nodup && decide (p[0] < p[2] ∧ p[1] < p[2]) &&
    (p.toList.drop 3).all fun r => decide (p[2] < r)

/-- A ROM image is present and of exactly the length of its region (60_exceptions R242). -/
def romPresent (len : Nat) (r : Option Rom) : Bool :=
  match r with
  | some i => decide (i.len = len)
  | none => false

/-- The boot ROM is there (70_reset R270). -/
def Cfg.bootRomOk (c : Cfg) : Bool := romPresent 0x20000 c.bootRom

/-- The character-generator ROM is there (70_reset R270). -/
def Cfg.cgRomOk (c : Cfg) : Bool := romPresent 0xC0000 c.cgRom

/-- The constraints of 00_scope R5 other than the two ROM images. -/
def Cfg.paramsWf (c : Cfg) : Bool :=
  decide (0 < c.ramSize ∧ c.ramSize ≤ 0xC00000) &&
  mapWf c.ramSize c.map &&
  decide (1 ≤ c.clockMult ∧ 1 ≤ c.quantum ∧ 1 ≤ c.keyDiv ∧ 1 ≤ c.mouseDiv ∧ c.frameskipMax < 2 ^ 8) &&
  c.modes.all (VideoMode.wf c) && decide (c.modes.map VideoMode.mode).Nodup &&
  prioWf c.prio &&
  c.dmaCost.toList.all (fun n => decide (1 ≤ n)) &&
  decide (1 ≤ c.rtcPeriodA ∧ 1 ≤ c.rtcPeriodB)

/-- A well-formed configuration (00_scope R5). -/
def Cfg.wf (c : Cfg) : Bool := c.bootRomOk && c.cgRomOk && c.paramsWf

/-- The further bound under which no counter of Table S overflows (10_state R32). -/
def Cfg.noOverflow (c : Cfg) : Bool :=
  c.modes.all fun m => decide (c.budget m + c.quantum + c.overrunMax < 2 ^ 31)

/-- The operands of an operation lie in the sets its rule names, under a configuration. -/
def Instr.wf (c : Cfg) : Instr → Bool
  | .powerOn cfg ramInit sramInit => Memory.wf cfg.ramSize ramInit && Memory.wf sramSize sramInit
  | .rtcRegRd a => decide (portDecode c.map false a = .rtcRegRd)
  | .rtcRegWr a _ => decide (portDecode c.map true a = .rtcRegWr)
  | .ramRd a => decide (portDecode c.map false a = .ramRd)
  | .ramWr a _ => decide (portDecode c.map true a = .ramWr)
  | .romRd a => decide (portDecode c.map false a = .romRd)
  | .scsiromRd a => decide (portDecode c.map false a = .scsiromRd)
  | .sramRd a => decide (portDecode c.map false a = .sramRd)
  | .sramWr a _ => decide (portDecode c.map true a = .sramWr)
  | .unmappedRd a => decide (portDecode c.map false a = .unmappedRd)
  | .unmappedWr a _ => decide (portDecode c.map true a = .unmappedWr)
  | .extRd a => match portDecode c.map false a with | .extRd _ => true | _ => false
  | .extWr a _ => match portDecode c.map true a with | .extWr _ => true | _ => false
  | .sasiCmdUnsupported op _ => decide (cmdOpOf op = .unsupported)
  | .fddWriteSector _ _ bs => decide (bs.length = c.fddSectorSize)
  | .shutdown | .reset | .runFrame | .save _ | .load _ _ | .hostBusRd _ | .hostBusWr _ _
  | .fddInsert _ _ | .fddEject _ | .fddGetImage _ | .fddSetImage _ _ | .fddIsReading _
  | .busRd8 _ | .busWr8 _ _ | .busRd16 _ | .busWr16 _ _ | .busRd32 _ | .busWr32 _ _
  | .sasiDataRd | .sasiDataWr _ | .sasiStatusRd | .sasiAckselWr _ | .sasiResetWr _ | .sasiSelectWr _
  | .sysportSramweWr _ | .sasiCmdbyte _ | .sasiDataout _ | .sasiVendorbyte _ | .sasiViolationWr _
  | .sasiNopWr _ | .sasiDatain | .sasiStatusbyte | .sasiMsgbyte | .sasiSensebyte | .sasiViolationRd
  | .sasiNopRd | .sasiCmdTestReady _ | .sasiCmdRecalibrate _ | .sasiCmdRequestSense _
  | .sasiCmdFormat _ | .sasiCmdRead _ | .sasiCmdWrite _ | .sasiCmdSeek _ | .sasiCmdVendorC2 _
  | .frameStart | .lineStart | .slice | .lineEnd | .frameEnd | .irqRequest _ | .irqResolve
  | .dmaStart _ _ _ _ _ _ | .dmaStep _ _ | .dmaXfer _ | .dmaComplete _ | .fastclrRequest
  | .fddReadSector _ _ | .timersTick _ | .rtcTick _
  | .sasiExecute | .sasiEnterStatus | .imgRead _ _ _ | .imgWrite _ _ _ | .imgOk _ _ _
  | .fastclrResolve | .frameskipAdapt _ => true

end Sys2Proof
end

