-- ==== Sys2Proof/Machine/TestConfig.lean ====
section
/-! DEFINITION. The configuration `CFG_T` and the backing image `IMG0` of 95_test_vectors section 2: the
well-formed configuration with which the machine of State.reset was powered on (log 2). -/

namespace Sys2Proof

/-- A backing image: its size in bytes and its contents (44_sasi R184). -/
structure Image where
  size : Nat
  bytes : Memory
  deriving DecidableEq, Repr, Inhabited

/-- `IMG0[256*k + j] = (j + k) mod 256`, 1024 bytes (95_test_vectors section 2). -/
def img0 : Image :=
  { size := 1024
    bytes := (List.range 1024).filterMap fun i =>
      let v := BitVec.ofNat 8 (i % 256 + i / 256)
      if v = Memory.unlisted then none else some (i, v) }

/-- `CFG_T` (95_test_vectors section 2). -/
def cfgT : Cfg :=
  { openBus := 0xFF
    ramSize := 0x200000
    map := defaultMap 0x200000
    bootRom := some ⟨0x20000, 0xB0, []⟩
    cgRom := some ⟨0xC0000, 0xC6, []⟩
    scsiRom := ⟨2, 0x53, [(1, 0x43)]⟩
    clockMult := 10
    modes := [⟨0, 4, 1000, 1, 3, 16, 2⟩]
    quantum := 100
    overrunMax := 0
    keyDiv := 2
    mouseDiv := 1
    frameskipMax := 100
    prio := #v[0, 1, 2, 3, 4, 5, 6, 7, 8]
    vec := some #v[0x40, 0x41, 0x42, 0x43, 0x44, 0x45, 0x46, 0x47, 0x48]
    dmaCost := #v[4, 4, 4]
    dmaOwner := #v[.fdc, .sasi, .ext]
    hd := #v[some 0, none, none, none, none, none, none, none, none, none, none, none, none, none, none, none]
    sasiErrIo := 0x0F
    sasiErrInvalid := 0x20
    sasiIrqPerByte := false
    numFdd := 2
    fddSectorSize := 1024
    rtcPeriodA := 10000000
    rtcPeriodB := 625000
    rtcHiNibble := 0 }

end Sys2Proof
end

