-- ==== Sys2Proof/Decode.lean ====
section
/-! DEFINITION. The decoder of a request (30_encoding R70 to R89), total, rejecting by name; the encoder;
and the two readings of an opcode-table word. -/

namespace Sys2Proof

/-- Why a request is no operation. -/
inductive DecodeError where
  /-- HOST codes 0xD to 0xF: no such entry point (30_encoding R86, U19). -/
  | reservedHostCode
  /-- A phase key with a reserved phase code (30_encoding R86). -/
  | reservedPhaseCode
  /-- Sequencing codes 5 to 7 (30_encoding R89). -/
  | reservedSeqCode
  /-- The arguments are not those of the operation. -/
  | badArguments
  /-- The transaction words are not one access of one, two or four bytes (30_encoding R88). -/
  | badBusGroup
  /-- An event code 3 that names a source of the block itself (30_encoding R71, log 27). -/
  | sourceNotExternal
  /-- A selector of the model's own that names no operation (log 1). -/
  | badSelector
  /-- An operand outside the set its rule names. -/
  | illFormedOperand
  deriving DecidableEq, Repr

/-- The operation of a HOST code (30_encoding R71). -/
def decodeHost (code : BitVec 4) (args : List Arg) : Except DecodeError Instr :=
  match code.toNat, args with
  | 0x0, [.cfg c, .mem r, .mem s] => .ok (.powerOn c r s)
  | 0x1, [] => .ok .shutdown
  | 0x2, [] => .ok .reset
  | 0x3, [] => .ok .runFrame
  | 0x4, [.snap m] => .ok (.save m)
  | 0x5, [.snap m, .bytes b] => .ok (.load m b)
  | 0x6, [.nat a] => .ok (.hostBusRd (BitVec.ofNat 24 a))
  | 0x7, [.nat a, .nat v] => .ok (.hostBusWr (BitVec.ofNat 24 a) (BitVec.ofNat 8 v))
  | 0x8, [.nat d, .nat h] => .ok (.fddInsert d h)
  | 0x9, [.nat d] => .ok (.fddEject d)
  | 0xA, [.nat d] => .ok (.fddGetImage d)
  | 0xB, [.nat d, .handle h] => .ok (.fddSetImage d h)
  | 0xC, [.nat d] => .ok (.fddIsReading d)
  | 0xD, _ | 0xE, _ | 0xF, _ => .error .reservedHostCode
  | _, _ => .error .badArguments

/-- The `rw` bit of a transaction word (30_encoding R72). -/
def busRw (t : BitVec 33) : Bool := t.getLsbD 32
/-- The address of a transaction word (30_encoding R72). -/
def busAddr (t : BitVec 33) : Addr := t.extractLsb' 8 24
/-- The data byte of a transaction word (30_encoding R72). -/
def busData (t : BitVec 33) : Byte := t.extractLsb' 0 8

/-- A transaction word (30_encoding R72). -/
def busWord (rw : Bool) (a : Addr) (v : Byte) : BitVec 33 := BitVec.ofBool rw ++ a ++ v

/-- The operation of one, two or four transaction words; of more than one, the words must be of one
direction and at ascending addresses (30_encoding R72, R88). -/
def decodeBus (ws : List (BitVec 33)) : Except DecodeError Instr :=
  match ws with
  | [t] => .ok (if busRw t then .busWr8 (busAddr t) (busData t) else .busRd8 (busAddr t))
  | [t, u] =>
    if busRw u = busRw t ∧ busAddr u = busAddr t + 1 then
      .ok (if busRw t then .busWr16 (busAddr t) (busData t ++ busData u) else .busRd16 (busAddr t))
    else .error .badBusGroup
  | [t, u, v, w] =>
    if (busRw u = busRw t ∧ busRw v = busRw t ∧ busRw w = busRw t) ∧
        (busAddr u = busAddr t + 1 ∧ busAddr v = busAddr t + 2 ∧ busAddr w = busAddr t + 3) then
      .ok (if busRw t then .busWr32 (busAddr t) (busData t ++ busData u ++ busData v ++ busData w)
        else .busRd32 (busAddr t))
    else .error .badBusGroup
  | _ => .error .badBusGroup

/-- A port key `(rw, addr)` (30_encoding R73). -/
def portKey (rw : Bool) (a : Addr) : BitVec 25 := BitVec.ofBool rw ++ a

/-- The operation of a port key under a map (30_encoding R73). -/
def decodePort (map : List Region) (key : BitVec 25) (v : Byte) : Instr :=
  let a : Addr := key.extractLsb' 0 24
  match portDecode map (key.getLsbD 24) a with
  | .sasiDataRd => .sasiDataRd
  | .sasiDataWr => .sasiDataWr v
  | .sasiStatusRd => .sasiStatusRd
  | .sasiAckselWr => .sasiAckselWr v
  | .sasiResetWr => .sasiResetWr v
  | .sasiSelectWr => .sasiSelectWr v
  | .sysportSramweWr => .sysportSramweWr v
  | .rtcRegRd => .rtcRegRd a
  | .rtcRegWr => .rtcRegWr a v
  | .ramRd => .ramRd a
  | .ramWr => .ramWr a v
  | .romRd => .romRd a
  | .scsiromRd => .scsiromRd a
  | .sramRd => .sramRd a
  | .sramWr => .sramWr a v
  | .unmappedRd => .unmappedRd a
  | .unmappedWr => .unmappedWr a v
  | .extRd _ => .extRd a
  | .extWr _ => .extWr a v

/-- The operation of a phase key `(rw, phase, sasi.rw)` (30_encoding R74). -/
def decodePhase (key : BitVec 6) (v : Byte) : Except DecodeError Instr :=
  match Phase.ofCode (key.extractLsb' 1 4) with
  | none => .error .reservedPhaseCode
  | some p =>
    match phaseOpOf (key.getLsbD 5) p (key.getLsbD 0) with
    | .cmdbyte => .ok (.sasiCmdbyte v)
    | .dataout => .ok (.sasiDataout v)
    | .vendorbyte => .ok (.sasiVendorbyte v)
    | .violationWr => .ok (.sasiViolationWr v)
    | .nopWr => .ok (.sasiNopWr v)
    | .datain => .ok .sasiDatain
    | .statusbyte => .ok .sasiStatusbyte
    | .msgbyte => .ok .sasiMsgbyte
    | .sensebyte => .ok .sasiSensebyte
    | .violationRd => .ok .sasiViolationRd
    | .nopRd => .ok .sasiNopRd

/-- The operation of a command block (30_encoding R76, R77). -/
def decodeCdb6 (w : BitVec 48) : Instr :=
  let b := Cdb.ofBlock w
  match cmdOpOf (blockByte w 0) with
  | .testReady => .sasiCmdTestReady b
  | .recalibrate => .sasiCmdRecalibrate b
  | .requestSense => .sasiCmdRequestSense b
  | .format => .sasiCmdFormat b
  | .read => .sasiCmdRead b
  | .write => .sasiCmdWrite b
  | .seek => .sasiCmdSeek b
  | .vendorC2 => .sasiCmdVendorC2 b
  | .unsupported => .sasiCmdUnsupported (blockByte w 0) b

/-- The operation of a sequencing code; code 0 is the step `RUN_FRAME` performs from IDLE (30_encoding R89). -/
def decodeSeq (code : BitVec 3) : Except DecodeError Instr :=
  match code.toNat with
  | 0 => .ok .frameStart
  | 1 => .ok .lineStart
  | 2 => .ok .slice
  | 3 => .ok .lineEnd
  | 4 => .ok .frameEnd
  | _ => .error .reservedSeqCode

/-- The operation of a DMA request (30_encoding R82, log 1). -/
def decodeDma (op c : BitVec 2) (args : List Nat) : Except DecodeError Instr :=
  match op.toNat, args with
  | 0, [src, dst, count, ss, ds] =>
    .ok (.dmaStart c (BitVec.ofNat 24 src) (BitVec.ofNat 24 dst) (BitVec.ofNat 16 count)
      (BitVec.ofNat 2 ss) (BitVec.ofNat 2 ds))
  | 1, [used] => .ok (.dmaStep c (BitVec.ofNat 32 used))
  | 2, [] => .ok (.dmaXfer c)
  | 3, [] => .ok (.dmaComplete c)
  | _, _ => .error .badArguments

/-- Whether an external device may request a source (30_encoding R71). -/
def externalSource (s : BitVec 4) : Bool := Src.ofId s = some .fdc || Src.ofId s = some .mfpTimer

/-- Whether event code 3 takes a source id: those of R71, and the reserved ids, which are no operation and no
refusal (30_encoding R86, 42_interrupt R130, U20). -/
def eventSource (s : BitVec 4) : Bool := externalSource s || (Src.ofId s).isNone

/-- The operation of an event (30_encoding R71). That code 3 with one of the block's own sources, outside R71's set,
is refused is the model's choice (DESIGN CHOICE, log 27). -/
def decodeEvt (code : BitVec 2) (args : List Arg) : Except DecodeError Instr :=
  match code.toNat, args with
  | 0, [] => .ok .fastclrRequest
  | 1, [.nat d, .nat lba] => .ok (.fddReadSector d lba)
  | 2, [.nat d, .nat lba, .bytes bs] => .ok (.fddWriteSector d lba bs)
  | 3, [.nat s] =>
    if eventSource (BitVec.ofNat 4 s) then .ok (.irqRequest (BitVec.ofNat 4 s))
    else .error .sourceNotExternal
  | _, _ => .error .badArguments

/-- The operation of a tick (30_encoding R71, log 1). -/
def decodeTick (op : BitVec 1) (used : Nat) : Instr :=
  if op = 0 then .timersTick (BitVec.ofNat 32 used) else .rtcTick (BitVec.ofNat 32 used)

/-- The internal operation of a selector (log 1). -/
def decodeInternal (op : BitVec 3) (args : List Arg) : Except DecodeError Instr :=
  match op.toNat, args with
  | 0, [] => .ok .sasiExecute
  | 1, [] => .ok .sasiEnterStatus
  | 2, [.handle h, .nat off, .nat n] => .ok (.imgRead h off n)
  | 3, [.handle h, .nat off, .bytes bs] => .ok (.imgWrite h off bs)
  | 4, [.handle h, .nat off, .nat n] => .ok (.imgOk h off n)
  | 5, [] => .ok .fastclrResolve
  | 6, [.nat ms] => .ok (.frameskipAdapt (BitVec.ofNat 32 ms))
  | 7, _ => .error .badSelector
  | _, _ => .error .badArguments

/-- The operation a request names, its operands not yet checked. -/
def decodeWord (c : Cfg) (r : Request) : Except DecodeError Instr :=
  match r with
  | .host code args => decodeHost code args
  | .bus ws => decodeBus ws
  | .port key v => .ok (decodePort c.map key v)
  | .phase key v => decodePhase key v
  | .cdb6 w => .ok (decodeCdb6 w)
  | .seq code => decodeSeq code
  | .irq (some s) => .ok (.irqRequest s)
  | .irq none => .ok .irqResolve
  | .dma op ch args => decodeDma op ch args
  | .evt code args => decodeEvt code args
  | .tick op used => .ok (decodeTick op used)
  | .internal op args => decodeInternal op args

/-- The decoder: the operation a request asks for under a configuration, or why it asks for none
(30_encoding R70, R86). -/
def decode (c : Cfg) (r : Request) : Except DecodeError Instr :=
  match decodeWord c r with
  | .ok i => if i.wf c then .ok i else .error .illFormedOperand
  | .error e => .error e

/-- The SASI data port (10_state R30). -/
def sasiDataAddr : Addr := 0xE96001
/-- The SASI status and select-acknowledge port (10_state R30). -/
def sasiStatusAddr : Addr := 0xE96003
/-- The SASI reset port (10_state R30). -/
def sasiResetAddr : Addr := 0xE96005
/-- The SASI select port (10_state R30). -/
def sasiSelectAddr : Addr := 0xE96007
/-- The SRAM write-enable port (10_state R30). -/
def sramweAddr : Addr := 0xE8E00D

/-- The 6-bit phase key (30_encoding R74); `toMaster` is `sasi.rw`. -/
def phaseKey (rw : Bool) (p : Phase) (toMaster : Bool) : BitVec 6 :=
  BitVec.ofBool rw ++ p.code ++ BitVec.ofBool toMaster

/-- The four bytes of a 32-bit value, most significant first (20_memory R44). -/
def wordByte (v : BitVec 32) (i : Nat) : Byte := v.extractLsb' (24 - 8 * i) 8

/-- The high byte of a 16-bit value (20_memory R44). -/
def hiByte (v : BitVec 16) : Byte := v.extractLsb' 8 8
/-- The low byte of a 16-bit value (20_memory R44). -/
def loByte (v : BitVec 16) : Byte := v.extractLsb' 0 8

/-- The request that asks for an operation: its word under the tables of 30_encoding (the default map of
20_memory R47 for the ports) and its typed arguments. Where a table row has don't-care bits they are 0. -/
def encode : Instr → Request
  | .powerOn c r s => .host 0x0 [.cfg c, .mem r, .mem s]
  | .shutdown => .host 0x1 []
  | .reset => .host 0x2 []
  | .runFrame => .host 0x3 []
  | .save m => .host 0x4 [.snap m]
  | .load m b => .host 0x5 [.snap m, .bytes b]
  | .hostBusRd a => .host 0x6 [.nat a.toNat]
  | .hostBusWr a v => .host 0x7 [.nat a.toNat, .nat v.toNat]
  | .fddInsert d h => .host 0x8 [.nat d, .nat h]
  | .fddEject d => .host 0x9 [.nat d]
  | .fddGetImage d => .host 0xA [.nat d]
  | .fddSetImage d h => .host 0xB [.nat d, .handle h]
  | .fddIsReading d => .host 0xC [.nat d]
  | .busRd8 a => .bus [busWord false a 0]
  | .busWr8 a v => .bus [busWord true a v]
  | .busRd16 a => .bus [busWord false a 0, busWord false (a + 1) 0]
  | .busWr16 a v => .bus [busWord true a (hiByte v), busWord true (a + 1) (loByte v)]
  | .busRd32 a =>
    .bus [busWord false a 0, busWord false (a + 1) 0, busWord false (a + 2) 0, busWord false (a + 3) 0]
  | .busWr32 a v =>
    .bus [busWord true a (wordByte v 0), busWord true (a + 1) (wordByte v 1),
      busWord true (a + 2) (wordByte v 2), busWord true (a + 3) (wordByte v 3)]
  | .sasiDataRd => .port (portKey false sasiDataAddr) 0
  | .sasiDataWr v => .port (portKey true sasiDataAddr) v
  | .sasiStatusRd => .port (portKey false sasiStatusAddr) 0
  | .sasiAckselWr v => .port (portKey true sasiStatusAddr) v
  | .sasiResetWr v => .port (portKey true sasiResetAddr) v
  | .sasiSelectWr v => .port (portKey true sasiSelectAddr) v
  | .sysportSramweWr v => .port (portKey true sramweAddr) v
  | .rtcRegRd a => .port (portKey false a) 0
  | .rtcRegWr a v => .port (portKey true a) v
  | .ramRd a => .port (portKey false a) 0
  | .ramWr a v => .port (portKey true a) v
  | .romRd a => .port (portKey false a) 0
  | .scsiromRd a => .port (portKey false a) 0
  | .sramRd a => .port (portKey false a) 0
  | .sramWr a v => .port (portKey true a) v
  | .unmappedRd a => .port (portKey false a) 0
  | .unmappedWr a v => .port (portKey true a) v
  | .extRd a => .port (portKey false a) 0
  | .extWr a v => .port (portKey true a) v
  | .sasiCmdbyte v => .phase (phaseKey true .command false) v
  | .sasiDataout v => .phase (phaseKey true .data false) v
  | .sasiVendorbyte v => .phase (phaseKey true .vendorInit false) v
  | .sasiViolationWr v => .phase (phaseKey true .data true) v
  | .sasiNopWr v => .phase (phaseKey true .busFree false) v
  | .sasiDatain => .phase (phaseKey false .data true) 0
  | .sasiStatusbyte => .phase (phaseKey false .status false) 0
  | .sasiMsgbyte => .phase (phaseKey false .message false) 0
  | .sasiSensebyte => .phase (phaseKey false .senseStatus false) 0
  | .sasiViolationRd => .phase (phaseKey false .command false) 0
  | .sasiNopRd => .phase (phaseKey false .busFree false) 0
  | .sasiCmdTestReady b => .cdb6 (b.block 0x00)
  | .sasiCmdRecalibrate b => .cdb6 (b.block 0x01)
  | .sasiCmdRequestSense b => .cdb6 (b.block 0x03)
  | .sasiCmdFormat b => .cdb6 (b.block 0x04)
  | .sasiCmdRead b => .cdb6 (b.block 0x08)
  | .sasiCmdWrite b => .cdb6 (b.block 0x0A)
  | .sasiCmdSeek b => .cdb6 (b.block 0x0B)
  | .sasiCmdVendorC2 b => .cdb6 (b.block 0xC2)
  | .sasiCmdUnsupported op b => .cdb6 (b.block op)
  | .frameStart => .seq 0
  | .lineStart => .seq 1
  | .slice => .seq 2
  | .lineEnd => .seq 3
  | .frameEnd => .seq 4
  | .irqRequest s => .irq (some s)
  | .irqResolve => .irq none
  | .dmaStart c src dst count ss ds =>
    .dma 0 c [src.toNat, dst.toNat, count.toNat, ss.toNat, ds.toNat]
  | .dmaStep c used => .dma 1 c [used.toNat]
  | .dmaXfer c => .dma 2 c []
  | .dmaComplete c => .dma 3 c []
  | .fastclrRequest => .evt 0 []
  | .fddReadSector d lba => .evt 1 [.nat d, .nat lba]
  | .fddWriteSector d lba bs => .evt 2 [.nat d, .nat lba, .bytes bs]
  | .timersTick used => .tick 0 used.toNat
  | .rtcTick used => .tick 1 used.toNat
  | .sasiExecute => .internal 0 []
  | .sasiEnterStatus => .internal 1 []
  | .imgRead h off n => .internal 2 [.handle h, .nat off, .nat n]
  | .imgWrite h off bs => .internal 3 [.handle h, .nat off, .bytes bs]
  | .imgOk h off n => .internal 4 [.handle h, .nat off, .nat n]
  | .fastclrResolve => .internal 5 []
  | .frameskipAdapt ms => .internal 6 [.nat ms.toNat]

/-- A configuration in which every parameter is zero and every image absent: the operand of a `POWER_ON`
whose operand words are zeros. -/
def Cfg.zero : Cfg :=
  { openBus := 0, ramSize := 0, map := [], bootRom := none, cgRom := none, scsiRom := ⟨0, 0, []⟩,
    clockMult := 0, modes := [], quantum := 0, overrunMax := 0, keyDiv := 0, mouseDiv := 0,
    frameskipMax := 0, prio := Vector.replicate 9 0, vec := none, dmaCost := Vector.replicate 3 0,
    dmaOwner := Vector.replicate 3 .fdc, hd := Vector.replicate 16 none, sasiErrIo := 0,
    sasiErrInvalid := 0, sasiIrqPerByte := false, numFdd := 0, fddSectorSize := 0, rtcPeriodA := 0,
    rtcPeriodB := 0, rtcHiNibble := 0 }

/-- The arguments of a HOST operation whose operand words are zeros: the number 0, the handle none or 0,
the mode `fast`, no bytes. -/
def zeroHostArgs (code : BitVec 4) : List Arg :=
  match code.toNat with
  | 0x0 => [.cfg Cfg.zero, .mem [], .mem []]
  | 0x4 => [.snap .fast]
  | 0x5 => [.snap .fast, .bytes []]
  | 0x6 | 0x9 | 0xA | 0xC => [.nat 0]
  | 0x7 | 0x8 => [.nat 0, .nat 0]
  | 0xB => [.nat 0, .handle none]
  | _ => []

/-- The arguments of an event whose operand words are zeros: a sector to be written is all zeros. -/
def zeroEvtArgs (c : Cfg) (code : BitVec 2) : List Arg :=
  match code.toNat with
  | 1 => [.nat 0, .nat 0]
  | 2 => [.nat 0, .nat 0, .bytes (List.replicate c.fddSectorSize 0)]
  | 3 => [.nat 0]
  | _ => []

/-- The request an opcode-table word of `nbits` bits stands for. The table's words of different formats
share bits (HOST, SEQ, EVT and PHASE all begin at 0), so the width picks the format: the exact widths 2 EVT,
3 SEQ, 4 HOST, 6 PHASE, 25 PORT, 33 BUS, 48 CDB6; in whole bytes 8 is HOST where the word is a HOST code
and PHASE otherwise, 32 is PORT, 40 is BUS (log 5). -/
def requestOfTableWord (c : Cfg) (nbits w : Nat) : Option Request :=
  match nbits with
  | 2 => some (.evt (BitVec.ofNat 2 w) (zeroEvtArgs c (BitVec.ofNat 2 w)))
  | 3 => some (.seq (BitVec.ofNat 3 w))
  | 4 => some (.host (BitVec.ofNat 4 w) (zeroHostArgs (BitVec.ofNat 4 w)))
  | 6 => some (.phase (BitVec.ofNat 6 w) 0)
  | 8 =>
    if w < 16 then some (.host (BitVec.ofNat 4 w) (zeroHostArgs (BitVec.ofNat 4 w)))
    else if w < 64 then some (.phase (BitVec.ofNat 6 w) 0)
    else none
  | 25 | 32 => if w < 2 ^ 25 then some (.port (BitVec.ofNat 25 w) 0) else none
  | 33 | 40 => if w < 2 ^ 33 then some (.bus [BitVec.ofNat 33 w]) else none
  | 48 => if w < 2 ^ 48 then some (.cdb6 (BitVec.ofNat 48 w)) else none
  | _ => none

/-- The operation the decoder reads from an opcode-table word, under the configuration of State.reset. -/
def decodeTableWord (nbits w : Nat) : Option Instr :=
  (requestOfTableWord cfgT nbits w).bind fun r => (decode cfgT r).toOption

end Sys2Proof
end

