-- ==== Sys2Proof/Machine/Components.lean ====
section
/-! DEFINITION. The components of the state (10_state Table S), each with its reset values, and the model's
own records of the environment's inputs and of the block's outputs (10_state R33). -/

namespace Sys2Proof.Machine

/-- MachineClock (10_state R10, Table S rows 1 to 8). `budget`, `next`, `count` and `carry` are in CPU
cycles, `resid` in 1/CLOCK_MULT base cycle, `lineused` in base cycles. -/
structure Clock where
  budget : BitVec 32
  line : BitVec 16
  nlines : BitVec 16
  next : BitVec 32
  resid : BitVec 32
  count : BitVec 32
  carry : BitVec 32
  lineused : BitVec 32
  deriving DecidableEq, Repr

/-- Scheduler bookkeeping (10_state R12, R13, Table S rows 9 to 16). -/
structure Sched where
  seq : Seq
  mode : BitVec 8
  render : Bool
  skipq : BitVec 8
  keyCnt : BitVec 16
  mouseCnt : BitVec 16
  fastclrPending : Bool
  fastclrCnt : BitVec 2
  deriving DecidableEq, Repr

/-- DmaChannel (10_state R16, Table S rows 18 to 25). -/
structure DmaChannel where
  src : Addr
  dst : Addr
  count : BitVec 16
  active : Bool
  sstep : BitVec 2
  dstep : BitVec 2
  credit : BitVec 32
  done : Bool
  deriving DecidableEq, Repr

/-- SasiDevice (10_state R18, Table S rows 26 to 40). `rw` is true while the Data phase moves bytes toward
the bus master. -/
structure Sasi where
  phase : Phase
  device : BitVec 7
  unit : BitVec 1
  cmd : Vector Byte 6
  cmdptr : BitVec 3
  sector : BitVec 32
  blocks : BitVec 16
  rw : Bool
  buf : Vector Byte 256
  bufptr : BitVec 9
  stat : Byte
  error : Byte
  sense : Vector Byte 4
  senseptr : BitVec 3
  vptr : BitVec 4
  deriving DecidableEq, Repr

/-- FddDrive (10_state R20, Table S rows 41 and 42, and the image handle outside Table S). -/
structure Fdd where
  inserted : Bool
  reading : Bool
  image : Option Handle
  deriving DecidableEq, Repr

/-- RtcState (10_state R21, Table S rows 43 to 47). -/
structure Rtc where
  mode : BitVec 4
  r15 : BitVec 4
  b1 : Vector (BitVec 4) 13
  ta : BitVec 32
  tb : BitVec 32
  deriving DecidableEq, Repr

/-- MODEL'S OWN. What the environment answers at the next draws, in order, and the number of draws made so
far; where a list is empty the draw is the free value of Config at that number (log 3). -/
structure Inputs where
  videoModes : List (BitVec 8)
  rasterLines : List (BitVec 16)
  elapsedMs : List (BitVec 32)
  clocks : List CalTime
  ready : List Bool
  extBytes : List Byte
  extEvents : List (List ExtEvent)
  backend : List BackendTurn
  drawn : Nat
  deriving DecidableEq, Repr

/-- An output event on `VIDEO_OUT`, `AUDIO_OUT` or `TICK_OUT` (10_state R33). -/
inductive OutEvent where
  | scanline (line : BitVec 16)
  | fastclrExecute
  | frameDone (rendered : Bool)
  | audioAdvance (baseCycles : BitVec 32)
  | extTick (used : Nat)
  deriving DecidableEq, Repr

/-- A transaction on another outgoing interface of 10_state R33: `CPU_EXEC`, `EXT_BUS`, `DMA_DONE`, the
answers to the backend and to the floppy controller, and the pacing report of 41_scheduler R122. -/
inductive Call where
  | cpuExecute (req : Nat) (irq : Option (Src × Byte))
  | cpuReset
  | extRead (a : Addr)
  | extWrite (a : Addr) (v : Byte)
  | dmaDone (c : Fin 3)
  | answer8 (v : Byte)
  | answer16 (v : BitVec 16)
  | answer32 (v : BitVec 32)
  | sectorRead (r : Option (List Byte))
  | sectorWritten (ok : Bool)
  | pacing (elapsedMs : BitVec 32) (ideal : Nat)
  deriving DecidableEq, Repr

/-- The image whose absence ConfigurationError records (60_exceptions R241). -/
inductive RomId where
  | boot | cg
  deriving DecidableEq, Repr

/-- MODEL'S OWN. What an operation returns to its caller (30_encoding R71, 60_exceptions R258). -/
inductive Result where
  | none
  | ok
  | configurationError (missing : RomId)
  | stateIntegrityError
  | byte (v : Byte)
  | half (v : BitVec 16)
  | word (v : BitVec 32)
  | bit (v : Bool)
  | buffer (bs : List Byte)
  | handle (h : Option Handle)
  | bytes (r : Option (List Byte))
  | succeeded (ok : Bool)
  | vector (r : Option (Src × Byte))
  deriving DecidableEq, Repr

/-- Table S, CLOCK: all 0. -/
def Clock.reset : Clock :=
  { budget := 0, line := 0, nlines := 0, next := 0, resid := 0, count := 0, carry := 0, lineused := 0 }

/-- Table S, SCHED: all 0 but `render` = 1. -/
def Sched.reset : Sched :=
  { seq := .idle, mode := 0, render := true, skipq := 0, keyCnt := 0, mouseCnt := 0,
    fastclrPending := false, fastclrCnt := 0 }

/-- Table S, DMA: all 0. -/
def DmaChannel.reset : DmaChannel :=
  { src := 0, dst := 0, count := 0, active := false, sstep := 0, dstep := 0, credit := 0, done := false }

/-- Table S, SASI: all 0 but `device` = 0x7F. -/
def Sasi.reset : Sasi :=
  { phase := .busFree, device := 0x7F, unit := 0, cmd := Vector.replicate 6 0, cmdptr := 0, sector := 0,
    blocks := 0, rw := false, buf := Vector.replicate 256 0, bufptr := 0, stat := 0, error := 0,
    sense := Vector.replicate 4 0, senseptr := 0, vptr := 0 }

/-- Table S, FDD, at POWER_ON: an empty drive. -/
def Fdd.reset : Fdd := { inserted := false, reading := false, image := none }

/-- Table S, RTC, at POWER_ON: all 0 but `r15` = 0xC. -/
def Rtc.reset : Rtc := { mode := 0, r15 := 0xC, b1 := Vector.replicate 13 0, ta := 0, tb := 0 }

/-- MODEL'S OWN. No draw lined up and none made (log 20). -/
def Inputs.reset : Inputs :=
  { videoModes := [], rasterLines := [], elapsedMs := [], clocks := [], ready := [], extBytes := [],
    extEvents := [], backend := [], drawn := 0 }

end Sys2Proof.Machine
end

