-- ==== Sys2Proof/Machine/State.lean ====
section
/-! DEFINITION. The state of the machine (10_state Table S, R32, and the rows beneath it), the reasons a
step can stop, and the state after power-on. -/

namespace Sys2Proof.Machine

/-- The whole state: Table S, the state a snapshot does not carry, and the model's own fields (marked in
INVENTORY.md). -/
structure State where
  /-- Table S rows 1 to 8. -/
  clk : Clock
  /-- Table S rows 9 to 16. -/
  sched : Sched
  /-- `irq.pend`, bit i the source of id i (Table S row 17). -/
  pend : BitVec 9
  /-- Table S rows 18 to 25. -/
  dma : Vector DmaChannel 3
  /-- Table S rows 26 to 40. -/
  sasi : Sasi
  /-- Table S rows 41 and 42, one entry per drive. -/
  fdd : List Fdd
  /-- Table S rows 43 to 47. -/
  rtc : Rtc
  /-- `sys.sram_we` (Table S row 48). -/
  sramWe : Bool
  /-- Table S row 49. -/
  sram : Memory
  /-- Table S row 50. -/
  ram : Memory
  /-- The backing images by handle (10_state R24). -/
  store : List (Handle × Image)
  /-- The operand `Cfg` of `POWER_ON` (00_scope R5, log 2). -/
  cfg : Cfg
  /-- Whether a machine context exists (70_reset R270, R273, log 11). -/
  alive : Bool
  /-- The operations asked for and not yet performed (log 1). -/
  queue : List Request
  /-- The environment's answers (log 3). -/
  inputs : Inputs
  /-- The output events, newest first (log 10). -/
  emitted : List OutEvent
  /-- The other outgoing transactions, newest first (log 10). -/
  calls : List Call
  /-- What the last operation returned (log 10). -/
  result : Result
  deriving DecidableEq, Repr

/-- The block's state as 10_state R32 counts it: Table S and the three rows beneath it. The context, what is
asked for, the environment's answers and what went out are not in it. -/
structure BlockState where
  clk : Clock
  sched : Sched
  pend : BitVec 9
  dma : Vector DmaChannel 3
  sasi : Sasi
  /-- With `fdd[d].image`, the first of the three rows. -/
  fdd : List Fdd
  rtc : Rtc
  sramWe : Bool
  sram : Memory
  ram : Memory
  /-- `HD[0..15]`, the second. -/
  hd : Vector (Option Handle) 16
  /-- The contents of the backing images, the third. -/
  store : List (Handle × Image)
  deriving DecidableEq, Repr

/-- The block's state within the whole state (10_state R32). -/
def State.block (s : State) : BlockState :=
  { clk := s.clk, sched := s.sched, pend := s.pend, dma := s.dma, sasi := s.sasi, fdd := s.fdd, rtc := s.rtc
    sramWe := s.sramWe, sram := s.sram, ram := s.ram, hd := s.cfg.hd, store := s.store }

/-- Why the machine stops. The spec gives no operation a fault outcome (60_exceptions R240). -/
inductive Fault where
  /-- Raised by RUN_FRAME where the frame is not over after the most micro-steps 41_scheduler R100 to R120
  allow a well-formed Cfg (70_reset R290). Safe: the spec's machine does not reach it (log 12). -/
  | frameUnending
  deriving DecidableEq, Repr

/-- Why an operation has no meaning in a state. -/
inductive Refusal where
  /-- Raised by no arm: every operation of the table is modelled. Safe. -/
  | notModelled (mnemonic : String)
  /-- Raised by step: the request names no operation (30_encoding R86, U19). Safe. -/
  | undecodable (e : DecodeError)
  /-- Raised by every operation but POWER_ON where no machine context exists (70_reset R271, R273, U18). Safe. -/
  | noContext
  /-- Raised by the HOST operations while a frame is in progress (70_reset R280, U18). Safe. -/
  | frameInProgress
  /-- Raised by POWER_ON for a Cfg outside 00_scope R5 with both ROM images present (60_exceptions R242, U14). Safe. -/
  | cfgIllFormed
  /-- Raised by the micro-steps for a video mode the mode table does not define (U9). Safe. -/
  | videoModeUndefined
  /-- Raised by SLICE where `clk.count >= clk.next`, its stated requirement not met (41_scheduler R108). Safe. -/
  | sliceNotDue
  deriving DecidableEq, Repr

/-- The machine right after `POWER_ON CFG_T` (70_reset R270, 95_test_vectors V-RST-1): every row of Table S
at its reset value, memories as CFG_T passes them, nothing asked for (log 2, log 4, log 20). -/
def State.reset : State :=
  { clk := Clock.reset
    sched := Sched.reset
    pend := 0
    dma := Vector.replicate 3 DmaChannel.reset
    sasi := Sasi.reset
    fdd := List.replicate cfgT.numFdd Fdd.reset
    rtc := Rtc.reset
    sramWe := false
    sram := []
    ram := []
    store := [(0, img0)]
    cfg := cfgT
    alive := true
    queue := []
    inputs := Inputs.reset
    emitted := []
    calls := [.cpuReset]
    result := .ok }

end Sys2Proof.Machine

namespace Sys2Proof.Config

/-- `VEC(s, state)` where the configuration leaves the vector callback open: a pure function of the source
and of the block's state at the resolution point (42_interrupt R134, U28, log 9). -/
opaque freeVector : Src → Machine.BlockState → Byte

end Sys2Proof.Config
end

