-- ==== Sys2Proof/Machine/Operands.lean ====
section
/-! DEFINITION. The operand forms: the bytes of wider accesses, the pointer steps of DMA, the fields of a
command block, the registers of the real-time clock, the blocks of an image. -/

namespace Sys2Proof.Machine

/-- `{h, l}`, the big-endian composition of two bytes (20_memory R44). -/
def half (h l : Byte) : BitVec 16 := h ++ l

/-- `{b0, b1, b2, b3}`, the big-endian composition of four bytes (20_memory R44). -/
def word (b0 b1 b2 b3 : Byte) : BitVec 32 := b0 ++ b1 ++ b2 ++ b3

/-- `STEP(p, code)`: code 1 adds 1, code 2 subtracts 1, modulo 2^24; codes 0 and 3 hold the pointer
(43_dma R142, 30_encoding R82, R86). -/
def stepPtr (p : Addr) (code : BitVec 2) : Addr :=
  match code.toNat with
  | 1 => p + 1
  | 2 => p - 1
  | _ => p

/-- The channel of a 2-bit channel number, none for 3 (30_encoding R82, R86). -/
def channelOf (c : BitVec 2) : Option (Fin 3) :=
  if h : c.toNat < 3 then some ⟨c.toNat, h⟩ else none

/-- Byte `i` of the command buffer (30_encoding R76). -/
def Sasi.cmdByte (d : Sasi) (i : Nat) : Byte := d.cmd[i]?.getD 0

/-- The command buffer as the 48-bit command block (30_encoding R76). -/
def Sasi.block (d : Sasi) : BitVec 48 :=
  d.cmdByte 0 ++ d.cmdByte 1 ++ d.cmdByte 2 ++ d.cmdByte 3 ++ d.cmdByte 4 ++ d.cmdByte 5

/-- The opcode of the command block (30_encoding R76). -/
def Sasi.opcode (d : Sasi) : Byte := d.cmdByte 0

/-- `cmd[1][5]`, the unit of the command block (30_encoding R76). -/
def Sasi.unitField (d : Sasi) : BitVec 1 := (Cdb.ofBlock d.block).unit

/-- The 21-bit sector of the command block, zero-extended (30_encoding R76). -/
def Sasi.sectorField (d : Sasi) : BitVec 32 := (Cdb.ofBlock d.block).sector.setWidth 32

/-- The block count of the command block: 0 means 256 (30_encoding R76). -/
def Sasi.blocksField (d : Sasi) : BitVec 16 :=
  if (Cdb.ofBlock d.block).blocks = 0 then 256 else (Cdb.ofBlock d.block).blocks.setWidth 16

/-- The command buffer that holds a command block (30_encoding R76). -/
def cmdOfBlock (w : BitVec 48) : Vector Byte 6 :=
  #v[blockByte w 0, blockByte w 1, blockByte w 2, blockByte w 3, blockByte w 4, blockByte w 5]

/-- The least set bit of a selection byte, none for 0 (30_encoding R75). -/
def lowestBit (v : Byte) : Option (Fin 8) := (List.finRange 8).find? fun i => v.getLsbD i

/-- The four sense bytes: the error code, the unit and the sector (30_encoding R79). -/
def Sasi.senseData (d : Sasi) : Vector Byte 4 :=
  #v[d.error, 0#2 ++ d.unit ++ d.sector.extractLsb' 16 5, d.sector.extractLsb' 8 8, d.sector.extractLsb' 0 8]

/-- A list of bytes as the first bytes of a 256-byte block. -/
def blockOfBytes (bs : List Byte) : Vector Byte 256 :=
  ⟨((List.range 256).map fun i => bs.getD i 0).toArray, by simp⟩

/-- The byte offset of a SASI block in its image, `sector x 256` (20_memory R55). -/
def Sasi.offset (d : Sasi) : Nat := d.sector.toNat * 256

/-- The register an RTC address names, `addr[4:1]` (30_encoding R83). -/
def rtcIndex (a : Addr) : Nat := (a.extractLsb' 1 4).toNat

/-- `LIVE(i)`: digit `i` of a calendar time, ones `x mod 10` and tens `x div 10` (45_peripheral R213,
30_encoding R83). -/
def liveDigit (t : CalTime) (i : Nat) : BitVec 4 :=
  match i with
  | 0 => BitVec.ofNat 4 (t.second.val % 10)
  | 1 => BitVec.ofNat 4 (t.second.val / 10)
  | 2 => BitVec.ofNat 4 (t.minute.val % 10)
  | 3 => BitVec.ofNat 4 (t.minute.val / 10)
  | 4 => BitVec.ofNat 4 (t.hour.val % 10)
  | 5 => BitVec.ofNat 4 (t.hour.val / 10)
  | 6 => BitVec.ofNat 4 t.weekday.val
  | 7 => BitVec.ofNat 4 ((t.day.val + 1) % 10)
  | 8 => BitVec.ofNat 4 ((t.day.val + 1) / 10)
  | 9 => BitVec.ofNat 4 ((t.month.val + 1) % 10)
  | 10 => BitVec.ofNat 4 ((t.month.val + 1) / 10)
  | 11 => BitVec.ofNat 4 (t.year.val % 10)
  | 12 => BitVec.ofNat 4 (t.year.val / 10)
  | _ => 0

end Sys2Proof.Machine
end

