-- ==== Sys2Proof/Machine/Flags.lean ====
section
/-! DEFINITION. The flags and condition bytes: the pending bits and the priority pick of the interrupt
controller (42_interrupt R130 to R136), and the SASI status port byte (30_encoding R78). -/

namespace Sys2Proof.Machine

/-- `irq.pend[s]` (10_state R14). -/
def pending (p : BitVec 9) (s : Src) : Bool := p.getLsbD s.id

/-- `irq.pend[s] <- 1` (42_interrupt R130). -/
def setPending (p : BitVec 9) (s : Src) : BitVec 9 := p ||| BitVec.twoPow 9 s.id

/-- `irq.pend[s] <- 0` (42_interrupt R135). -/
def clearPending (p : BitVec 9) (s : Src) : BitVec 9 := p &&& ~~~(BitVec.twoPow 9 s.id)

/-- `PRIO(s)`: the smaller rank has the higher priority (42_interrupt R133). -/
def Cfg.rank (c : Cfg) (s : Src) : Nat := c.prio[s.id.val]

/-- The source of the smallest rank of a list (42_interrupt R133). -/
def leastRank (rank : Src → Nat) : List Src → Option Src
  | [] => none
  | s :: rest =>
    match leastRank rank rest with
    | none => some s
    | some t => if rank s ≤ rank t then some s else some t

/-- The pending source of highest priority, none where nothing is pending (42_interrupt R132, R133). -/
def highestPending (c : Cfg) (p : BitVec 9) : Option Src :=
  leastRank (Cfg.rank c) (Src.all.filter (pending p))

/-- REQ: the phases that exchange bytes (30_encoding R78). -/
def Phase.req : Phase → Bool
  | .busFree | .selection => false
  | .command | .data | .status | .message | .senseStatus | .vendorInit => true

/-- C/D (30_encoding R78). -/
def Phase.cd : Phase → Bool
  | .command | .status | .message => true
  | .busFree | .selection | .data | .senseStatus | .vendorInit => false

/-- I/O: the controller is the sender (30_encoding R78). -/
def Phase.io (toMaster : Bool) : Phase → Bool
  | .status | .message | .senseStatus => true
  | .data => toMaster
  | .busFree | .selection | .command | .vendorInit => false

/-- The status-port byte `{0, 0, 0, MSG, CD, IO, BSY, REQ}` (44_sasi R164, 30_encoding R78). -/
def Sasi.statusByte (d : Sasi) : Byte :=
  0#3 ++ BitVec.ofBool (d.phase == .message) ++ BitVec.ofBool (Phase.cd d.phase) ++
    BitVec.ofBool (Phase.io d.rw d.phase) ++ BitVec.ofBool (d.phase != .busFree) ++
    BitVec.ofBool (Phase.req d.phase)

end Sys2Proof.Machine
end

