-- ==== Sys2Proof/Machine/Ops.lean ====
section
/-! DEFINITION. The named operations over the state that the meanings share: memories, outputs, the draws
of the environment, the requests and the delivery of interrupts, and the conditions under which an operation
may be performed at all. -/

namespace Sys2Proof.Machine

/-- The byte of a memory at an address (20_memory R48). -/
def Memory.read : Memory → Nat → Byte
  | [], _ => Memory.unlisted
  | (b, w) :: m, a => if a = b then w else Memory.read m a

/-- An entry of a memory; a byte equal to what an unlisted address reads as is not listed. -/
def Memory.entry (a : Nat) (v : Byte) (m : Memory) : Memory :=
  if v = Memory.unlisted then m else (a, v) :: m

/-- The memory in which an address holds a byte (20_memory R48). -/
def Memory.write : Memory → Nat → Byte → Memory
  | [], a, v => Memory.entry a v []
  | (b, w) :: m, a, v =>
    if a < b then Memory.entry a v ((b, w) :: m)
    else if a = b then Memory.entry a v m
    else (b, w) :: Memory.write m a v

/-- The bytes of a memory from `off` on, `n` of them. -/
def Memory.readRange (m : Memory) (off n : Nat) : List Byte :=
  (List.range n).map fun i => Memory.read m (off + i)

/-- The memory in which the bytes from `off` on are those of a list. -/
def Memory.writeRange : Memory → Nat → List Byte → Memory
  | m, _, [] => m
  | m, off, b :: bs => Memory.writeRange (Memory.write m off b) (off + 1) bs

/-- The byte of a ROM image, `OPEN_BUS` beyond its length (20_memory R49). -/
def Rom.read (r : Rom) (openBus : Byte) (off : Nat) : Byte :=
  if off < r.len then ((r.cells.find? fun c => c.1 == off).map Prod.snd).getD r.fill else openBus

/-- `emit E(args)` on an output interface (00_scope R7). -/
def State.emit (s : State) (e : OutEvent) : State := { s with emitted := e :: s.emitted }

/-- A transaction on another outgoing interface (10_state R33, log 10). -/
def State.call (s : State) (c : Call) : State := { s with calls := c :: s.calls }

/-- What an operation returns to its caller (60_exceptions R258, log 10). -/
def State.returning (s : State) (r : Result) : State := { s with result := r }

/-- One draw made: the lists of answers left, the counter advanced (log 3). -/
def State.drew (s : State) (i : Inputs) : State :=
  { s with inputs := { i with drawn := i.drawn + 1 } }

/-- `VIDEO_IN.video_mode` at its next sampling (41_scheduler R101). -/
def State.nextVideoMode (s : State) : BitVec 8 :=
  s.inputs.videoModes.headD (Config.freeVideoMode s.inputs.drawn)
/-- The state once `video_mode` is sampled. -/
def State.drewVideoMode (s : State) : State :=
  s.drew { s.inputs with videoModes := s.inputs.videoModes.tail }

/-- `VIDEO_IN.raster_line` at its next sampling (41_scheduler R107). -/
def State.nextRasterLine (s : State) : BitVec 16 :=
  s.inputs.rasterLines.headD (Config.freeRasterLine s.inputs.drawn)
/-- The state once `raster_line` is sampled. -/
def State.drewRasterLine (s : State) : State :=
  s.drew { s.inputs with rasterLines := s.inputs.rasterLines.tail }

/-- `HOSTCLK.elapsed_ms` at its next draw (41_scheduler R120). -/
def State.nextElapsedMs (s : State) : BitVec 32 :=
  s.inputs.elapsedMs.headD (Config.freeElapsedMs s.inputs.drawn)
/-- The state once `elapsed_ms` is drawn. -/
def State.drewElapsedMs (s : State) : State :=
  s.drew { s.inputs with elapsedMs := s.inputs.elapsedMs.tail }

/-- `HOSTCLK.now` at its next draw (45_peripheral R213). -/
def State.nextNow (s : State) : CalTime := s.inputs.clocks.headD (Config.freeNow s.inputs.drawn)
/-- The state once `now` is drawn. -/
def State.drewNow (s : State) : State := s.drew { s.inputs with clocks := s.inputs.clocks.tail }

/-- `DMA_RDY.ready[c]` at its next sampling (43_dma R145, 10_state R33). -/
def State.nextReady (s : State) : Bool := s.inputs.ready.headD (Config.freeReady s.inputs.drawn)
/-- The state once `ready[c]` is sampled. -/
def State.drewReady (s : State) : State := s.drew { s.inputs with ready := s.inputs.ready.tail }

/-- The byte an EXT window answers at the next draw (40_bus R99). -/
def State.nextExtByte (s : State) : Byte :=
  s.inputs.extBytes.headD (Config.freeExtByte s.inputs.drawn)
/-- The state once that byte is drawn. -/
def State.drewExtByte (s : State) : State :=
  s.drew { s.inputs with extBytes := s.inputs.extBytes.tail }

/-- The events an external device injects at the next draw (40_bus R99, 41_scheduler R126). -/
def State.nextExtEvents (s : State) : List ExtEvent :=
  s.inputs.extEvents.headD (Config.freeExtEvents s.inputs.drawn)
/-- The state once those events are drawn. -/
def State.drewExtEvents (s : State) : State :=
  s.drew { s.inputs with extEvents := s.inputs.extEvents.tail }

/-- The CPU backend's answer to the next `execute` (41_scheduler R110). -/
def State.nextBackend (s : State) : BackendTurn :=
  s.inputs.backend.headD (Config.freeBackend s.inputs.drawn)
/-- The state once the backend has answered. -/
def State.drewBackend (s : State) : State :=
  s.drew { s.inputs with backend := s.inputs.backend.tail }

/-- `IRQ.REQUEST(s)` of a source (42_interrupt R130): its pending bit is set, whatever it was (R131). -/
def State.requestSrc (s : State) (src : Src) : State := { s with pend := setPending s.pend src }

/-- `IRQ.REQUEST(id)` of a 4-bit id: a reserved id does nothing (42_interrupt R130, 30_encoding R86). -/
def State.requestId (s : State) (id : BitVec 4) : State :=
  match Src.ofId id with
  | some src => s.requestSrc src
  | none => s

/-- `VEC(s, state)`: a function of the source and of the block's state alone (42_interrupt R134, log 9). -/
def State.vector (s : State) (src : Src) : Byte :=
  match s.cfg.vec with
  | some t => t[src.id.val]
  | none => Config.freeVector src s.block

/-- `IRQ.RESOLVE`, the taking of an interrupt (42_interrupt R132, 60_exceptions R249): the pending source of
highest priority is chosen, supplies its vector, and its pending bit is cleared; the block saves and
switches nothing else. Returning from one has no operation (60_exceptions R250). -/
def State.resolve (s : State) : Option (Src × Byte) × State :=
  match highestPending s.cfg s.pend with
  | none => (none, s)
  | some src => (some (src, s.vector src), { s with pend := clearPending s.pend src })

/-- The outcome of an operation that completes with a result. -/
def completes (s : State) (r : Result) : Host.Outcome State Fault Refusal := .next (s.returning r)

/-- An operation of a machine context: refused where none exists (70_reset R271, R273, U18). -/
def inContext (s : State) (k : Host.Outcome State Fault Refusal) : Host.Outcome State Fault Refusal :=
  if s.alive then k else .refused .noContext

/-- A HOST operation: it requires `sched.seq = IDLE` (70_reset R280, U18). -/
def betweenFrames (s : State) (k : Host.Outcome State Fault Refusal) : Host.Outcome State Fault Refusal :=
  inContext s (if s.sched.seq = .idle then k else .refused .frameInProgress)

end Sys2Proof.Machine
end

