-- ==== Sys2Proof/Machine/Context.lean ====
section
/-! DEFINITION. Power-on, reset and shutdown of the machine context (70_reset R270 to R274). -/

namespace Sys2Proof.Machine

/-- The context `POWER_ON` creates: every row of Table S at its reset value, the memories as passed, the
backend reset (70_reset R270). The backing images, the environment and what was asked for are the host's. -/
def State.poweredOn (s : State) (c : Cfg) (ramInit sramInit : Memory) : State :=
  { s with
    clk := Clock.reset, sched := Sched.reset, pend := 0, dma := Vector.replicate 3 DmaChannel.reset
    sasi := Sasi.reset, fdd := List.replicate c.numFdd Fdd.reset, rtc := Rtc.reset, sramWe := false
    sram := sramInit, ram := ramInit, cfg := c, alive := true, calls := .cpuReset :: s.calls }

/-- `RESET` (70_reset R272): every row of Table S that does not survive it, and the backend. -/
def State.wasReset (s : State) : State :=
  { s with
    clk := Clock.reset, sched := Sched.reset, pend := 0, dma := Vector.replicate 3 DmaChannel.reset
    sasi := Sasi.reset, fdd := s.fdd.map fun f => { f with reading := false }
    rtc := { s.rtc with ta := 0, tb := 0 }, sramWe := false, calls := .cpuReset :: s.calls }

/-- The context ceases to exist (70_reset R271, R273). -/
def State.ended (s : State) : State := { s with alive := false }

/-- `POWER_ON` (70_reset R270, R271): a missing ROM image is the result ConfigurationError and there is no
context; any other ill-formed Cfg is outside the model's domain (60_exceptions R242, U14). A context that
exists already is replaced, and may not be in the middle of a frame (70_reset R280, log 11). After a `SHUTDOWN` or a
failed `POWER_ON`, where R271, R273 and U18 define no operation, it makes a new context as it does where there never
was one (DESIGN CHOICE, log 11). -/
def execPowerOn (c : Cfg) (ramInit sramInit : Memory) (s : State) : Host.Outcome State Fault Refusal :=
  if s.alive ∧ s.sched.seq ≠ .idle then .refused .frameInProgress
  else if !c.bootRomOk then completes s.ended (.configurationError .boot)
  else if !c.cgRomOk then completes s.ended (.configurationError .cg)
  else if c.paramsWf then completes (s.poweredOn c ramInit sramInit) .ok
  else .refused .cfgIllFormed

/-- `RESET` (70_reset R272). -/
def execReset (s : State) : Host.Outcome State Fault Refusal :=
  betweenFrames s (completes s.wasReset .none)

/-- `SHUTDOWN` (70_reset R273). -/
def execShutdown (s : State) : Host.Outcome State Fault Refusal :=
  betweenFrames s (completes s.ended .none)

end Sys2Proof.Machine
end

