-- ==== Sys2Proof/Machine/Store.lean ====
section
/-! DEFINITION. The backing store (44_sasi R184): a flat, byte-addressed image for each handle, and the
three primitives over it. -/

namespace Sys2Proof.Machine

/-- The image of a handle. -/
def findImage : List (Handle × Image) → Handle → Option Image
  | [], _ => none
  | (k, im) :: st, h => if k = h then some im else findImage st h

/-- The store in which the image of a handle is another. -/
def setImage : List (Handle × Image) → Handle → Image → List (Handle × Image)
  | [], _, _ => []
  | (k, im) :: st, h, im' => if k = h then (k, im') :: st else (k, im) :: setImage st h im'

/-- The image a handle or none names. The spec knows one byte array for each handle; that a handle for which the
store holds none has no image, so that the three primitives fail on it although the handle is present, is the
model's choice (DESIGN CHOICE, log 28). -/
def State.image? (s : State) (h : Option Handle) : Option Image := h.bind (findImage s.store)

/-- `ImgOk(h, off, n)`: h is present and `off + n <= size(h)` (44_sasi R184). -/
def State.imgOk (s : State) (h : Option Handle) (off n : Nat) : Bool :=
  match s.image? h with
  | some im => decide (off + n ≤ im.size)
  | none => false

/-- `ImgRead(h, off, n)`: the bytes, or none where it fails (44_sasi R184). -/
def State.imgRead (s : State) (h : Option Handle) (off n : Nat) : Option (List Byte) :=
  match s.image? h with
  | some im => if off + n ≤ im.size then some (Memory.readRange im.bytes off n) else none
  | none => none

/-- `ImgWrite(h, off, bs)`: whether it succeeds, and the state; on failure the image is unchanged
(44_sasi R184). -/
def State.imgWrite (s : State) (h : Option Handle) (off : Nat) (bs : List Byte) : Bool × State :=
  match h, s.image? h with
  | some k, some im =>
    if off + bs.length ≤ im.size then
      (true, { s with store := setImage s.store k { im with bytes := Memory.writeRange im.bytes off bs } })
    else (false, s)
  | _, _ => (false, s)

/-- `ImgOk` (44_sasi R184). -/
def execImgOk (h : Option Handle) (off n : Nat) (s : State) : Host.Outcome State Fault Refusal :=
  inContext s (completes s (.succeeded (s.imgOk h off n)))

/-- `ImgRead` (44_sasi R184). -/
def execImgRead (h : Option Handle) (off n : Nat) (s : State) : Host.Outcome State Fault Refusal :=
  inContext s (completes s (.bytes (s.imgRead h off n)))

/-- `ImgWrite` (44_sasi R184). -/
def execImgWrite (h : Option Handle) (off : Nat) (bs : List Byte) (s : State) :
    Host.Outcome State Fault Refusal :=
  inContext s (completes (s.imgWrite h off bs).2 (.succeeded (s.imgWrite h off bs).1))

end Sys2Proof.Machine
end

