-- ==== Sys2Proof/Machine/DmaChannel.lean ====
section
/-! DEFINITION. A DMA channel's trigger, its completion and its owner's request line (43_dma R140, R143,
R145). -/

namespace Sys2Proof.Machine

/-- The state in which channel `c` is another. -/
def State.withChannel (s : State) (c : Fin 3) (ch : DmaChannel) : State :=
  { s with dma := s.dma.set c.val ch c.isLt }

/-- Channel `c`. -/
def State.channel (s : State) (c : Fin 3) : DmaChannel := s.dma[c.val]

/-- `DMA.START` of an existing channel (43_dma R140): ignored on an active channel or with count 0. -/
def State.startChannel (s : State) (c : Fin 3) (src dst : Addr) (count : BitVec 16)
    (sstep dstep : BitVec 2) : State :=
  if (s.channel c).active ∨ count = 0 then s
  else s.withChannel c
    { src := src, dst := dst, count := count, sstep := sstep, dstep := dstep, credit := 0, done := false,
      active := true }

/-- `DMA.START` (43_dma R140): channel 3 does not exist. -/
def State.dmaStart (s : State) (c : BitVec 2) (src dst : Addr) (count : BitVec 16)
    (sstep dstep : BitVec 2) : State :=
  match channelOf c with
  | some ch => s.startChannel ch src dst count sstep dstep
  | none => s

/-- `DMA.COMPLETE` (43_dma R143): the condition is presented to the owner on `DMA_DONE`. -/
def State.completeChannel (s : State) (c : Fin 3) : State :=
  (s.withChannel c { s.channel c with active := false, done := true }).call (.dmaDone c)

/-- `READY(c)` (43_dma R145): the Data phase for the SASI controller; for an external owner `line`, the bit
`DMA_RDY.ready[c]` of this `DMA.STEP` (log 8). -/
def State.ready (s : State) (c : Fin 3) (line : Bool) : Bool :=
  match s.cfg.dmaOwner[c.val] with
  | .sasi => s.sasi.phase == .data
  | .fdc | .ext => line

/-- The state once a `DMA.STEP` of an active channel has sampled its owner's line: one draw for an external
owner, none for the SASI controller (10_state R33, 93 U10, log 8). -/
def State.sampledReady (s : State) (c : Fin 3) : State :=
  match s.cfg.dmaOwner[c.val] with
  | .sasi => s
  | .fdc | .ext => s.drewReady

/-- `DMA.START` (43_dma R140). -/
def execDmaStart (c : BitVec 2) (src dst : Addr) (count : BitVec 16) (sstep dstep : BitVec 2) (s : State) :
    Host.Outcome State Fault Refusal :=
  inContext s (completes (s.dmaStart c src dst count sstep dstep) .none)

/-- `DMA.COMPLETE` (43_dma R143). On channel 3, which does not exist, no operation (U20, log 26). -/
def execDmaComplete (c : BitVec 2) (s : State) : Host.Outcome State Fault Refusal :=
  inContext s (completes (match channelOf c with | some ch => s.completeChannel ch | none => s) .none)

end Sys2Proof.Machine
end

