-- ==== Sys2Proof/Machine/Fdd.lean ====
section
/-! DEFINITION. The floppy drive interface (45_peripheral R200 to R207). -/

namespace Sys2Proof.Machine

/-- The state in which drive `d`, where there is one, is changed; a drive number not below `NUM_FDD` is
ignored (45_peripheral R200, U20). -/
def State.modifyDrive (s : State) (d : Nat) (f : Fdd → Fdd) : State := { s with fdd := s.fdd.modify d f }

/-- `FDD.INSERT` (45_peripheral R200). -/
def State.fddInsert (s : State) (d : Nat) (h : Handle) : State :=
  s.modifyDrive d fun _ => { image := some h, inserted := true, reading := false }

/-- `FDD.EJECT` (45_peripheral R201). -/
def State.fddEject (s : State) (d : Nat) : State :=
  s.modifyDrive d fun _ => { image := none, inserted := false, reading := false }

/-- `FDD.GET_IMAGE` (45_peripheral R202). -/
def State.fddGetImage (s : State) (d : Nat) : Option Handle := (s.fdd[d]?).bind Fdd.image

/-- `FDD.SET_IMAGE` (45_peripheral R203). -/
def State.fddSetImage (s : State) (d : Nat) (h : Option Handle) : State :=
  s.modifyDrive d fun f => { f with image := h }

/-- `FDD.IS_READING` (45_peripheral R206). -/
def State.fddIsReading (s : State) (d : Nat) : Bool := ((s.fdd[d]?).map Fdd.reading).getD false

/-- The image a sector operation reaches, none where it fails at once: no such drive, no media, no handle
(45_peripheral R204, R205). -/
def State.sectorImage (s : State) (d : Nat) : Option Handle :=
  match s.fdd[d]? with
  | some f => if f.inserted then f.image else none
  | none => none

/-- `FDD.READ_SECTOR` (45_peripheral R204): the bytes or none, and the state. -/
def State.fddReadSector (s : State) (d lba : Nat) : Option (List Byte) × State :=
  match s.sectorImage d with
  | none => (none, s)
  | some h =>
    (s.imgRead (some h) (lba * s.cfg.fddSectorSize) s.cfg.fddSectorSize,
      s.modifyDrive d fun f => { f with reading := true })

/-- `FDD.WRITE_SECTOR` (45_peripheral R205): whether it succeeds, and the state. -/
def State.fddWriteSector (s : State) (d lba : Nat) (bs : List Byte) : Bool × State :=
  match s.sectorImage d with
  | none => (false, s)
  | some h => s.imgWrite (some h) (lba * s.cfg.fddSectorSize) bs

/-- `FDD.INSERT` (45_peripheral R200). -/
def execFddInsert (d : Nat) (h : Handle) (s : State) : Host.Outcome State Fault Refusal :=
  betweenFrames s (completes (s.fddInsert d h) .none)

/-- `FDD.EJECT` (45_peripheral R201). -/
def execFddEject (d : Nat) (s : State) : Host.Outcome State Fault Refusal :=
  betweenFrames s (completes (s.fddEject d) .none)

/-- `FDD.GET_IMAGE` (45_peripheral R202). -/
def execFddGetImage (d : Nat) (s : State) : Host.Outcome State Fault Refusal :=
  betweenFrames s (completes s (.handle (s.fddGetImage d)))

/-- `FDD.SET_IMAGE` (45_peripheral R203). -/
def execFddSetImage (d : Nat) (h : Option Handle) (s : State) : Host.Outcome State Fault Refusal :=
  betweenFrames s (completes (s.fddSetImage d h) .none)

/-- `FDD.IS_READING` (45_peripheral R206). -/
def execFddIsReading (d : Nat) (s : State) : Host.Outcome State Fault Refusal :=
  betweenFrames s (completes s (.bit (s.fddIsReading d)))

/-- `FDD.READ_SECTOR` (45_peripheral R204). -/
def execFddReadSector (d lba : Nat) (s : State) : Host.Outcome State Fault Refusal :=
  inContext s (completes (s.fddReadSector d lba).2 (.bytes (s.fddReadSector d lba).1))

/-- `FDD.WRITE_SECTOR` (45_peripheral R205). -/
def execFddWriteSector (d lba : Nat) (bs : List Byte) (s : State) : Host.Outcome State Fault Refusal :=
  inContext s (completes (s.fddWriteSector d lba bs).2 (.succeeded (s.fddWriteSector d lba bs).1))

end Sys2Proof.Machine
end

