-- ==== Sys2Proof/Machine/External.lean ====
section
/-! DEFINITION. The external devices: the events they may inject and the EXT windows (10_state R33,
20_memory R52, 40_bus R99). -/

namespace Sys2Proof.Machine

/-- `FASTCLR.REQUEST` (41_scheduler R127). -/
def State.fastclrRequest (s : State) : State :=
  { s with sched := { s.sched with fastclrPending := true } }

/-- One event of an external device; a sector's outcome goes back to the floppy controller. -/
def State.applyEvent (s : State) (e : ExtEvent) : State :=
  match e with
  | .irqRequest src => s.requestSrc src
  | .fastclrRequest => s.fastclrRequest
  | .fddReadSector d lba =>
    (s.fddReadSector d lba).2.call (.sectorRead (s.fddReadSector d lba).1)
  | .fddWriteSector d lba bs =>
    (s.fddWriteSector d lba bs).2.call (.sectorWritten (s.fddWriteSector d lba bs).1)
  | .dmaStart c src dst count ss ds => s.dmaStart c src dst count ss ds

/-- A sector that is written has `FDD_SECTOR_SIZE` bytes (45_peripheral R205). -/
def sectorSized (c : Cfg) (bs : List Byte) : Bool := bs.length == c.fddSectorSize

/-- The events a window's device may inject during a transaction to it (20_memory R47, 41_scheduler R127,
43_dma R140; log 14). `rw` is true for a write. -/
def windowAllows (c : Cfg) (x : ExtWindow) (rw : Bool) (e : ExtEvent) : Bool :=
  match x, e with
  | .mfp, .irqRequest .mfpTimer => true
  | .fdc, .irqRequest .fdc => true
  | .fdc, .fddReadSector _ _ => true
  | .fdc, .fddWriteSector _ _ bs => sectorSized c bs
  | .crtcVc, .fastclrRequest => true
  | .dmacRegs, .dmaStart _ _ _ _ _ _ => rw
  | _, _ => false

/-- The events the external devices may inject during a tick (10_state R33, 41_scheduler R126). -/
def tickAllows (c : Cfg) (e : ExtEvent) : Bool :=
  match e with
  | .irqRequest .mfpTimer | .irqRequest .fdc | .fastclrRequest | .fddReadSector _ _ => true
  | .fddWriteSector _ _ bs => sectorSized c bs
  | .irqRequest _ | .dmaStart _ _ _ _ _ _ => false

/-- The drawn events applied in order, those not allowed left out: `events <- draw; apply events`
(40_bus R99). -/
def State.drawEvents (s : State) (allows : ExtEvent → Bool) : State :=
  (s.nextExtEvents.filter allows).foldl State.applyEvent s.drewExtEvents

/-- Whether the device behind an address may inject an event; an address in no EXT window has no device. -/
def deviceAllows (c : Cfg) (rw : Bool) (a : Addr) (e : ExtEvent) : Bool :=
  match portDecode c.map rw a with
  | .extRd x | .extWr x => windowAllows c x rw e
  | _ => false

/-- The part of `EXT.RD` before the answer: the transaction forwarded, the events applied (40_bus R99). -/
def State.extForwardRead (s : State) (a : Addr) : State :=
  (s.call (.extRead a)).drawEvents (deviceAllows s.cfg false a)

/-- `EXT.RD` (40_bus R99): the byte and the state. -/
def State.extRead (s : State) (a : Addr) : Byte × State :=
  ((s.extForwardRead a).nextExtByte, (s.extForwardRead a).drewExtByte)

/-- `EXT.WR` (40_bus R99). -/
def State.extWrite (s : State) (a : Addr) (v : Byte) : State :=
  (s.call (.extWrite a v)).drawEvents (deviceAllows s.cfg true a)

/-- `EXT.RD` (40_bus R99). -/
def execExtRd (a : Addr) (s : State) : Host.Outcome State Fault Refusal :=
  inContext s (completes (s.extRead a).2 (.byte (s.extRead a).1))

/-- `EXT.WR` (40_bus R99). -/
def execExtWr (a : Addr) (v : Byte) (s : State) : Host.Outcome State Fault Refusal :=
  inContext s (completes (s.extWrite a v) .none)

/-- `FASTCLR.REQUEST` (41_scheduler R127). -/
def execFastclrRequest (s : State) : Host.Outcome State Fault Refusal :=
  inContext s (completes s.fastclrRequest .none)

end Sys2Proof.Machine
end

