-- ==== Sys2Proof/Machine/RawMemory.lean ====
section
/-! DEFINITION. The raw memory regions, the system-control port and the addresses without a handler
(40_bus R96 to R98, 45_peripheral R215 to R220). -/

namespace Sys2Proof.Machine

/-- `RAM.RD` (40_bus R96). An address not below `RAM_SIZE` has no byte of RAM and reads `OPEN_BUS`. -/
def State.ramRead (s : State) (a : Addr) : Byte :=
  if a.toNat < s.cfg.ramSize then Memory.read s.ram a.toNat else s.cfg.openBus

/-- `RAM.WR` (40_bus R96). An address not below `RAM_SIZE` has no byte of RAM and the write is dropped. -/
def State.ramWrite (s : State) (a : Addr) (v : Byte) : State :=
  if a.toNat < s.cfg.ramSize then { s with ram := Memory.write s.ram a.toNat v } else s

/-- The byte of a ROM that must be present: `OPEN_BUS` could be read only with a Cfg `POWER_ON` rejects. -/
def romByte (c : Cfg) (r : Option Rom) (off : Nat) : Byte :=
  match r with
  | some i => Rom.read i c.openBus off
  | none => c.openBus

/-- `ROM.RD` (40_bus R97): the byte of the image of the region the address lies in. -/
def State.romRead (s : State) (a : Addr) : Byte :=
  match kindAt s.cfg.map a with
  | .bootRom => romByte s.cfg s.cfg.bootRom (offsetAt s.cfg.map a)
  | .cgRom => romByte s.cfg s.cfg.cgRom (offsetAt s.cfg.map a)
  | .ram | .unmapped | .ext _ | .rtc | .sysport | .sasi | .scsiRom | .sram => s.cfg.openBus

/-- `SCSIROM.RD` (45_peripheral R220): beyond the image's length, `OPEN_BUS`. -/
def State.scsiromRead (s : State) (a : Addr) : Byte :=
  Rom.read s.cfg.scsiRom s.cfg.openBus (offsetAt s.cfg.map a)

/-- `SRAM.RD` (45_peripheral R217). -/
def State.sramRead (s : State) (a : Addr) : Byte :=
  if offsetAt s.cfg.map a < sramSize then Memory.read s.sram (offsetAt s.cfg.map a) else s.cfg.openBus

/-- `SRAM.WR` (45_peripheral R218): dropped where the write enable is clear. -/
def State.sramWrite (s : State) (a : Addr) (v : Byte) : State :=
  if s.sramWe ∧ offsetAt s.cfg.map a < sramSize then
    { s with sram := Memory.write s.sram (offsetAt s.cfg.map a) v }
  else s

/-- `SYSPORT.SRAMWE.WR` (45_peripheral R215): the key 0x31 enables, any other byte disables. -/
def State.sramweWrite (s : State) (v : Byte) : State := { s with sramWe := v == 0x31 }

/-- `RAM.RD` (40_bus R96). -/
def execRamRd (a : Addr) (s : State) : Host.Outcome State Fault Refusal :=
  inContext s (completes s (.byte (s.ramRead a)))

/-- `RAM.WR` (40_bus R96). -/
def execRamWr (a : Addr) (v : Byte) (s : State) : Host.Outcome State Fault Refusal :=
  inContext s (completes (s.ramWrite a v) .none)

/-- `ROM.RD` (40_bus R97). -/
def execRomRd (a : Addr) (s : State) : Host.Outcome State Fault Refusal :=
  inContext s (completes s (.byte (s.romRead a)))

/-- `SCSIROM.RD` (45_peripheral R220). -/
def execScsiromRd (a : Addr) (s : State) : Host.Outcome State Fault Refusal :=
  inContext s (completes s (.byte (s.scsiromRead a)))

/-- `SRAM.RD` (45_peripheral R217). -/
def execSramRd (a : Addr) (s : State) : Host.Outcome State Fault Refusal :=
  inContext s (completes s (.byte (s.sramRead a)))

/-- `SRAM.WR` (45_peripheral R218). -/
def execSramWr (a : Addr) (v : Byte) (s : State) : Host.Outcome State Fault Refusal :=
  inContext s (completes (s.sramWrite a v) .none)

/-- `SYSPORT.SRAMWE.WR` (45_peripheral R215). -/
def execSysportSramweWr (v : Byte) (s : State) : Host.Outcome State Fault Refusal :=
  inContext s (completes (s.sramweWrite v) .none)

/-- `UNMAPPED.RD` (40_bus R98). -/
def execUnmappedRd (_a : Addr) (s : State) : Host.Outcome State Fault Refusal :=
  inContext s (completes s (.byte s.cfg.openBus))

/-- `UNMAPPED.WR` (40_bus R98): nothing. -/
def execUnmappedWr (_a : Addr) (_v : Byte) (s : State) : Host.Outcome State Fault Refusal :=
  inContext s (completes s .none)

end Sys2Proof.Machine
end

