-- ==== Sys2Proof/Machine/Rtc.lean ====
section
/-! DEFINITION. The real-time clock (45_peripheral R210 to R214). -/

namespace Sys2Proof.Machine

/-- Whether a read of register `i` takes a digit of the live time (45_peripheral R210). -/
def Rtc.isLive (r : Rtc) (i : Nat) : Bool := decide (i ≤ 12) && !r.mode.getLsbD 0

/-- The nibble of register `i` where it is not a live digit (45_peripheral R210). -/
def Rtc.stored (r : Rtc) (i : Nat) : BitVec 4 := if i = 13 then r.mode else r.b1[i]?.getD 0

/-- `RTC.REG.RD` at an address (45_peripheral R210): the byte, and the state, in which nothing but the
draws made has changed. -/
def State.rtcRead (s : State) (a : Addr) : Byte × State :=
  if s.rtc.isLive (rtcIndex a) then
    (s.cfg.rtcHiNibble ++ liveDigit s.nextNow (rtcIndex a), s.drewNow)
  else (s.cfg.rtcHiNibble ++ s.rtc.stored (rtcIndex a), s)

/-- The registers after a nibble is written to register `i` (45_peripheral R211). -/
def Rtc.store (r : Rtc) (i : Nat) (n : BitVec 4) : Rtc :=
  if i = 13 then { r with mode := n }
  else if i = 14 then r
  else if i = 15 then
    if n.getLsbD 1 then { r with r15 := n, ta := 0, tb := 0 } else { r with r15 := n }
  else if r.mode.getLsbD 0 then { r with b1 := r.b1.setIfInBounds i n } else r

/-- `RTC.REG.WR` at an address (45_peripheral R211). -/
def State.rtcWrite (s : State) (a : Addr) (v : Byte) : State :=
  { s with rtc := s.rtc.store (rtcIndex a) (v.setWidth 4) }

/-- An accumulator after `used` base cycles, before its pulses are taken off. -/
def advanced (acc : BitVec 32) (used : Nat) : Nat := (BitVec.ofNat 32 (acc.toNat + used)).toNat

/-- One timer of `RTC.TICK` (45_peripheral R212): the accumulator less its whole periods, and whether there
was a pulse. The loop that takes one period off at a time leaves the remainder. -/
def timerTick (acc : BitVec 32) (used period : Nat) : BitVec 32 × Bool :=
  (BitVec.ofNat 32 (advanced acc used % period), decide (period ≤ advanced acc used))

/-- `RTC.TICK` (45_peripheral R212). Bit 3 of register 15 turns timer A's request off, bit 2 timer B's. -/
def State.rtcTick (s : State) (used : Nat) : State :=
  let a := timerTick s.rtc.ta used s.cfg.rtcPeriodA
  let b := timerTick s.rtc.tb used s.cfg.rtcPeriodB
  let s' := { s with rtc := { s.rtc with ta := a.1, tb := b.1 } }
  if (a.2 && !s.rtc.r15.getLsbD 3) || (b.2 && !s.rtc.r15.getLsbD 2) then s'.requestSrc .rtc else s'

/-- `RTC.REG.RD` (45_peripheral R210). -/
def execRtcRegRd (a : Addr) (s : State) : Host.Outcome State Fault Refusal :=
  inContext s (completes (s.rtcRead a).2 (.byte (s.rtcRead a).1))

/-- `RTC.REG.WR` (45_peripheral R211). -/
def execRtcRegWr (a : Addr) (v : Byte) (s : State) : Host.Outcome State Fault Refusal :=
  inContext s (completes (s.rtcWrite a v) .none)

/-- `RTC.TICK` (45_peripheral R212). -/
def execRtcTick (used : BitVec 32) (s : State) : Host.Outcome State Fault Refusal :=
  inContext s (completes (s.rtcTick used.toNat) .none)

end Sys2Proof.Machine
end

