-- ==== Sys2Proof/Machine/Sasi.lean ====
section
/-! DEFINITION. The SASI hard-disk controller (44_sasi R160 to R188): ports, phases, commands. -/

namespace Sys2Proof.Machine

/-- The state with another SASI controller state. -/
def State.withSasi (s : State) (d : Sasi) : State := { s with sasi := d }

/-- `H = HD[2 * sasi.device + sasi.unit]`, the handle of the addressed unit or none; an index past 15 (no
device selected) has none (44_sasi, opening; log 23). -/
def State.unitImage (s : State) : Option Handle :=
  (s.cfg.hd[2 * s.sasi.device.toNat + s.sasi.unit.toNat]?).join

/-- A device is configured when either of its units has an image (30_encoding R75). -/
def deviceConfigured (c : Cfg) (d : Fin 8) : Bool :=
  (c.hd[2 * d.val]?).join.isSome || (c.hd[2 * d.val + 1]?).join.isSome

/-- `SasiEnterStatus` (44_sasi R182). -/
def State.enterStatus (s : State) : State :=
  (s.withSasi { s.sasi with phase := .status }).requestSrc .sasi

/-- The command ends with a status byte (44_sasi R182). -/
def State.endCommand (s : State) (stat : Byte) : State :=
  (s.withSasi { s.sasi with stat := stat }).enterStatus

/-- The command ends with status 0x02 (check) and an error code (44_sasi R182, 60_exceptions R243). -/
def State.failCommand (s : State) (error : Byte) : State :=
  (s.withSasi { s.sasi with stat := 0x02, error := error }).enterStatus

/-- The error code of a unit without a backing image (30_encoding R80). -/
def errNoImage : Byte := 0x7F

/-- `SasiViolate`, a phase violation (44_sasi R188). -/
def State.violate (s : State) : State :=
  (s.withSasi { s.sasi with cmdptr := 0, bufptr := 0, senseptr := 0, vptr := 0 }).failCommand
    s.cfg.sasiErrInvalid

/-! ### Ports -/

/-- `SASI.SELECT.WR` (44_sasi R161). -/
def State.sasiSelect (s : State) (v : Byte) : State :=
  match s.sasi.phase, lowestBit v with
  | .busFree, some d =>
    if deviceConfigured s.cfg d then
      s.withSasi { s.sasi with device := BitVec.ofNat 7 d.val, phase := .selection }
    else s
  | _, _ => s

/-- `SASI.ACKSEL.WR` (44_sasi R162). -/
def State.sasiAcksel (s : State) : State :=
  if s.sasi.phase = .selection then s.withSasi { s.sasi with phase := .command, cmdptr := 0 } else s

/-- `SASI.RESET.WR` (44_sasi R163): every SASI row of Table S. -/
def State.sasiReset (s : State) : State := s.withSasi Sasi.reset

/-! ### Commands -/

/-- `SASI.CMD.TEST_READY` (44_sasi R167). -/
def State.testReady (s : State) : State :=
  if s.unitImage.isSome then s.endCommand 0x00 else s.failCommand errNoImage

/-- `SASI.CMD.RECALIBRATE` (44_sasi R168). -/
def State.recalibrate (s : State) : State :=
  if s.unitImage.isSome then (s.withSasi { s.sasi with sector := 0 }).endCommand 0x00
  else s.failCommand errNoImage

/-- `SASI.CMD.REQUEST_SENSE` (44_sasi R169). -/
def State.requestSense (s : State) : State :=
  s.withSasi { s.sasi with
    sense := s.sasi.senseData, error := 0x00, senseptr := 0, stat := 0x00, phase := .senseStatus }

/-- `SASI.CMD.FORMAT` (44_sasi R170). -/
def State.formatUnit (s : State) : State := s.endCommand 0x00

/-- What Read and Write take from the command block (44_sasi R171, R172). -/
def Sasi.beginTransfer (d : Sasi) (toMaster : Bool) : Sasi :=
  { d with sector := d.sectorField, blocks := d.blocksField, rw := toMaster, bufptr := 0, stat := 0x00 }

/-- `SASI.CMD.READ` once the fields are latched (44_sasi R171). -/
def State.startRead (s : State) : State :=
  if s.unitImage.isNone then s.failCommand errNoImage
  else
    match s.imgRead s.unitImage s.sasi.offset 256 with
    | none => s.failCommand s.cfg.sasiErrIo
    | some bs => s.withSasi { s.sasi with buf := blockOfBytes bs, phase := .data }

/-- `SASI.CMD.READ` (44_sasi R171). -/
def State.readBlocks (s : State) : State := (s.withSasi (s.sasi.beginTransfer true)).startRead

/-- `SASI.CMD.WRITE` once the fields are latched (44_sasi R172). -/
def State.startWrite (s : State) : State :=
  if s.unitImage.isNone then s.failCommand errNoImage
  else if s.imgOk s.unitImage s.sasi.offset 256 then s.withSasi { s.sasi with phase := .data }
  else s.failCommand s.cfg.sasiErrIo

/-- `SASI.CMD.WRITE` (44_sasi R172). -/
def State.writeBlocks (s : State) : State := (s.withSasi (s.sasi.beginTransfer false)).startWrite

/-- `SASI.CMD.SEEK` (44_sasi R173). -/
def State.seekUnit (s : State) : State :=
  if s.unitImage.isSome then s.endCommand 0x00 else s.failCommand errNoImage

/-- `SASI.CMD.VENDOR_C2` (44_sasi R174). -/
def State.vendorC2 (s : State) : State :=
  s.withSasi { s.sasi with vptr := 0, phase := .vendorInit }

/-- `SASI.CMD.UNSUPPORTED` (44_sasi R175). -/
def State.unsupported (s : State) : State := s.failCommand s.cfg.sasiErrInvalid

/-- The command of a command code (44_sasi R166). -/
def State.runCommand (s : State) (op : CmdOp) : State :=
  match op with
  | .testReady => s.testReady
  | .recalibrate => s.recalibrate
  | .requestSense => s.requestSense
  | .format => s.formatUnit
  | .read => s.readBlocks
  | .write => s.writeBlocks
  | .seek => s.seekUnit
  | .vendorC2 => s.vendorC2
  | .unsupported => s.unsupported

/-- `sasi.unit <- cmd[1][5]`, latched before the opcode is examined (44_sasi R166). -/
def State.latchUnit (s : State) : State := s.withSasi { s.sasi with unit := s.sasi.unitField }

/-- `SASI.EXECUTE` (44_sasi R166). -/
def State.sasiExecute (s : State) : State := s.latchUnit.runCommand (cmdOpOf s.sasi.opcode)

/-- A command block in the command buffer, its unit latched: what the sixth command byte leaves before the
command runs (44_sasi R165, R166, log 7). -/
def State.withBlock (s : State) (op : Byte) (b : Cdb) : State :=
  (s.withSasi { s.sasi with cmd := cmdOfBlock (b.block op) }).latchUnit

/-! ### Data port by phase -/

/-- `SASI.CMDBYTE` (44_sasi R165). -/
def State.cmdbyte (s : State) (v : Byte) : State :=
  let d := { s.sasi with cmd := s.sasi.cmd.setIfInBounds s.sasi.cmdptr.toNat v
                         cmdptr := s.sasi.cmdptr + 1 }
  if d.cmdptr = 6 then (s.withSasi { d with cmdptr := 0 }).sasiExecute else s.withSasi d

/-- The request of each Data byte where `SASI_IRQ_PER_BYTE` is set (44_sasi R182). -/
def State.requestPerByte (s : State) : State :=
  if s.cfg.sasiIrqPerByte then s.requestSrc .sasi else s

/-- The buffer pointer back at the start of the buffer (44_sasi R176, R177). -/
def Sasi.rewound (d : Sasi) : Sasi := { d with bufptr := 0 }

/-- `sasi.blocks - 1` (44_sasi R176, R177). With no blocks to go, which only a `LOAD` brings about, 00_scope R6 gives
the difference no value and the result is a free value (DESIGN CHOICE, log 29). -/
def Sasi.blocksLess (d : Sasi) : BitVec 16 := if d.blocks = 0 then Config.freeBlocks else d.blocks - 1

/-- One block done, the next sector addressed (44_sasi R176, R177). -/
def Sasi.nextBlock (d : Sasi) : Sasi := { d with blocks := d.blocksLess, sector := d.sector + 1 }

/-- After a block has been read out: the next block, or Status (44_sasi R176). -/
def State.blockRead (s : State) : State :=
  if s.sasi.blocks = 0 then s.enterStatus
  else
    match s.imgRead s.unitImage s.sasi.offset 256 with
    | none => s.failCommand s.cfg.sasiErrIo
    | some bs => s.withSasi { s.sasi with buf := blockOfBytes bs }

/-- The end of a block read (44_sasi R176). -/
def State.nextBlockIn (s : State) : State := (s.withSasi s.sasi.rewound.nextBlock).blockRead

/-- The state after one more Data byte has passed through the buffer (44_sasi R176, R177). -/
def State.byteMoved (s : State) : State :=
  (s.withSasi { s.sasi with bufptr := s.sasi.bufptr + 1 }).requestPerByte

/-- The byte `SASI.DATAIN` returns (44_sasi R176). -/
def Sasi.dataByte (d : Sasi) : Byte := d.buf[d.bufptr.toNat]?.getD 0

/-- `SASI.DATAIN` (44_sasi R176): the byte returned is `dataByte` of the state before. -/
def State.datain (s : State) : State :=
  if s.byteMoved.sasi.bufptr = 256 then s.byteMoved.nextBlockIn else s.byteMoved

/-- After a block has been written: Status, or the next block if its place is in the image (44_sasi R177). -/
def State.blockWritten (s : State) : State :=
  if s.sasi.blocks = 0 then s.enterStatus
  else if s.imgOk s.unitImage s.sasi.offset 256 then s
  else s.failCommand s.cfg.sasiErrIo

/-- The buffer written to the addressed unit's image: whether it succeeds, and the state (44_sasi R177). -/
def State.flush (s : State) : Bool × State := s.imgWrite s.unitImage s.sasi.offset s.sasi.buf.toList

/-- The end of a block written, once the buffer is flushed (44_sasi R177). -/
def State.flushed (r : Bool × State) : State :=
  if r.1 then (r.2.withSasi r.2.sasi.nextBlock).blockWritten else r.2.failCommand r.2.cfg.sasiErrIo

/-- The end of a block written (44_sasi R177). -/
def State.nextBlockOut (s : State) : State := State.flushed (s.withSasi s.sasi.rewound).flush

/-- The state with a byte at the place of the buffer pointer (44_sasi R177). -/
def State.bufferByte (s : State) (v : Byte) : State :=
  s.withSasi { s.sasi with buf := s.sasi.buf.setIfInBounds s.sasi.bufptr.toNat v }

/-- `SASI.DATAOUT` (44_sasi R177). -/
def State.dataout (s : State) (v : Byte) : State :=
  if (s.bufferByte v).byteMoved.sasi.bufptr = 256 then (s.bufferByte v).byteMoved.nextBlockOut
  else (s.bufferByte v).byteMoved

/-- `SASI.STATUSBYTE` (44_sasi R178): the byte returned is `sasi.stat`. -/
def State.statusbyte (s : State) : State := s.withSasi { s.sasi with phase := .message }

/-- `SASI.MSGBYTE` (44_sasi R179): the byte returned is 0x00. -/
def State.msgbyte (s : State) : State :=
  s.withSasi { s.sasi with phase := .busFree, device := 0x7F }

/-- The byte `SASI.SENSEBYTE` returns (44_sasi R180). -/
def Sasi.senseByte (d : Sasi) : Byte := d.sense[d.senseptr.toNat]?.getD 0

/-- `SASI.SENSEBYTE` (44_sasi R180). -/
def State.sensebyte (s : State) : State :=
  let d := { s.sasi with senseptr := s.sasi.senseptr + 1 }
  if d.senseptr.toNat = Config.sasiSenseLen then (s.withSasi { d with senseptr := 0 }).enterStatus
  else s.withSasi d

/-- `SASI.VENDORBYTE` (44_sasi R181). -/
def State.vendorbyte (s : State) : State :=
  let d := { s.sasi with vptr := s.sasi.vptr + 1 }
  if d.vptr.toNat = Config.sasiVendorLen then (s.withSasi { d with vptr := 0 }).endCommand 0x00
  else s.withSasi d

/-- `SASI.DATA.RD` (44_sasi R160): the byte and the state. -/
def State.sasiDataRd (s : State) : Byte × State :=
  match phaseOpOf false s.sasi.phase s.sasi.rw with
  | .datain => (s.sasi.dataByte, s.datain)
  | .statusbyte => (s.sasi.stat, s.statusbyte)
  | .msgbyte => (0x00, s.msgbyte)
  | .sensebyte => (s.sasi.senseByte, s.sensebyte)
  | .violationRd => (0x00, s.violate)
  | .nopRd | .cmdbyte | .dataout | .vendorbyte | .violationWr | .nopWr => (0x00, s)

/-- `SASI.DATA.WR` (44_sasi R160). -/
def State.sasiDataWr (s : State) (v : Byte) : State :=
  match phaseOpOf true s.sasi.phase s.sasi.rw with
  | .cmdbyte => s.cmdbyte v
  | .dataout => s.dataout v
  | .vendorbyte => s.vendorbyte
  | .violationWr => s.violate
  | .nopWr | .datain | .statusbyte | .msgbyte | .sensebyte | .violationRd | .nopRd => s

/-! ### Meanings -/

/-- `SASI.DATA.RD` (44_sasi R160). -/
def execSasiDataRd (s : State) : Host.Outcome State Fault Refusal :=
  inContext s (completes s.sasiDataRd.2 (.byte s.sasiDataRd.1))

/-- `SASI.DATA.WR` (44_sasi R160). -/
def execSasiDataWr (v : Byte) (s : State) : Host.Outcome State Fault Refusal :=
  inContext s (completes (s.sasiDataWr v) .none)

/-- `SASI.STATUS.RD` (44_sasi R164). -/
def execSasiStatusRd (s : State) : Host.Outcome State Fault Refusal :=
  inContext s (completes s (.byte s.sasi.statusByte))

/-- `SASI.ACKSEL.WR` (44_sasi R162); the value is ignored. -/
def execSasiAckselWr (_v : Byte) (s : State) : Host.Outcome State Fault Refusal :=
  inContext s (completes s.sasiAcksel .none)

/-- `SASI.RESET.WR` (44_sasi R163); the value is ignored. -/
def execSasiResetWr (_v : Byte) (s : State) : Host.Outcome State Fault Refusal :=
  inContext s (completes s.sasiReset .none)

/-- `SASI.SELECT.WR` (44_sasi R161). -/
def execSasiSelectWr (v : Byte) (s : State) : Host.Outcome State Fault Refusal :=
  inContext s (completes (s.sasiSelect v) .none)

/-- `SASI.CMDBYTE` (44_sasi R165). -/
def execSasiCmdbyte (v : Byte) (s : State) : Host.Outcome State Fault Refusal :=
  inContext s (completes (s.cmdbyte v) .none)

/-- `SASI.DATAOUT` (44_sasi R177). -/
def execSasiDataout (v : Byte) (s : State) : Host.Outcome State Fault Refusal :=
  inContext s (completes (s.dataout v) .none)

/-- `SASI.VENDORBYTE` (44_sasi R181); the value is ignored. -/
def execSasiVendorbyte (_v : Byte) (s : State) : Host.Outcome State Fault Refusal :=
  inContext s (completes s.vendorbyte .none)

/-- `SASI.VIOLATION.WR` (44_sasi R188). -/
def execSasiViolationWr (_v : Byte) (s : State) : Host.Outcome State Fault Refusal :=
  inContext s (completes s.violate .none)

/-- `SASI.NOP.WR` (44_sasi R183). -/
def execSasiNopWr (_v : Byte) (s : State) : Host.Outcome State Fault Refusal :=
  inContext s (completes s .none)

/-- `SASI.DATAIN` (44_sasi R176). -/
def execSasiDatain (s : State) : Host.Outcome State Fault Refusal :=
  inContext s (completes s.datain (.byte s.sasi.dataByte))

/-- `SASI.STATUSBYTE` (44_sasi R178). -/
def execSasiStatusbyte (s : State) : Host.Outcome State Fault Refusal :=
  inContext s (completes s.statusbyte (.byte s.sasi.stat))

/-- `SASI.MSGBYTE` (44_sasi R179). -/
def execSasiMsgbyte (s : State) : Host.Outcome State Fault Refusal :=
  inContext s (completes s.msgbyte (.byte 0x00))

/-- `SASI.SENSEBYTE` (44_sasi R180). -/
def execSasiSensebyte (s : State) : Host.Outcome State Fault Refusal :=
  inContext s (completes s.sensebyte (.byte s.sasi.senseByte))

/-- `SASI.VIOLATION.RD` (44_sasi R188). -/
def execSasiViolationRd (s : State) : Host.Outcome State Fault Refusal :=
  inContext s (completes s.violate (.byte 0x00))

/-- `SASI.NOP.RD` (44_sasi R183). -/
def execSasiNopRd (s : State) : Host.Outcome State Fault Refusal :=
  inContext s (completes s (.byte 0x00))

/-- `SASI.CMD.TEST_READY` (44_sasi R167). -/
def execSasiCmdTestReady (b : Cdb) (s : State) : Host.Outcome State Fault Refusal :=
  inContext s (completes (s.withBlock 0x00 b).testReady .none)

/-- `SASI.CMD.RECALIBRATE` (44_sasi R168). -/
def execSasiCmdRecalibrate (b : Cdb) (s : State) : Host.Outcome State Fault Refusal :=
  inContext s (completes (s.withBlock 0x01 b).recalibrate .none)

/-- `SASI.CMD.REQUEST_SENSE` (44_sasi R169). -/
def execSasiCmdRequestSense (b : Cdb) (s : State) : Host.Outcome State Fault Refusal :=
  inContext s (completes (s.withBlock 0x03 b).requestSense .none)

/-- `SASI.CMD.FORMAT` (44_sasi R170). -/
def execSasiCmdFormat (b : Cdb) (s : State) : Host.Outcome State Fault Refusal :=
  inContext s (completes (s.withBlock 0x04 b).formatUnit .none)

/-- `SASI.CMD.READ` (44_sasi R171). -/
def execSasiCmdRead (b : Cdb) (s : State) : Host.Outcome State Fault Refusal :=
  inContext s (completes (s.withBlock 0x08 b).readBlocks .none)

/-- `SASI.CMD.WRITE` (44_sasi R172). -/
def execSasiCmdWrite (b : Cdb) (s : State) : Host.Outcome State Fault Refusal :=
  inContext s (completes (s.withBlock 0x0A b).writeBlocks .none)

/-- `SASI.CMD.SEEK` (44_sasi R173). -/
def execSasiCmdSeek (b : Cdb) (s : State) : Host.Outcome State Fault Refusal :=
  inContext s (completes (s.withBlock 0x0B b).seekUnit .none)

/-- `SASI.CMD.VENDOR_C2` (44_sasi R174). -/
def execSasiCmdVendorC2 (b : Cdb) (s : State) : Host.Outcome State Fault Refusal :=
  inContext s (completes (s.withBlock 0xC2 b).vendorC2 .none)

/-- `SASI.CMD.UNSUPPORTED` (44_sasi R175). -/
def execSasiCmdUnsupported (op : Byte) (b : Cdb) (s : State) : Host.Outcome State Fault Refusal :=
  inContext s (completes (s.withBlock op b).unsupported .none)

/-- `SASI.EXECUTE` (44_sasi R166). -/
def execSasiExecute (s : State) : Host.Outcome State Fault Refusal :=
  inContext s (completes s.sasiExecute .none)

/-- `SasiEnterStatus` (44_sasi R182). -/
def execSasiEnterStatus (s : State) : Host.Outcome State Fault Refusal :=
  inContext s (completes s.enterStatus .none)

end Sys2Proof.Machine
end

