-- ==== Sys2Proof/Machine/Bus.lean ====
section
/-! DEFINITION. The Address-Space Bus: byte transactions and the accesses composed of them (40_bus R90 to
R95). -/

namespace Sys2Proof.Machine

/-- `BUS.RD8` (40_bus R90): the byte and the state. -/
def State.busRd8 (s : State) (a : Addr) : Byte × State :=
  match portDecode s.cfg.map false a with
  | .sasiDataRd => s.sasiDataRd
  | .sasiStatusRd => (s.sasi.statusByte, s)
  | .rtcRegRd => s.rtcRead a
  | .ramRd => (s.ramRead a, s)
  | .romRd => (s.romRead a, s)
  | .scsiromRd => (s.scsiromRead a, s)
  | .sramRd => (s.sramRead a, s)
  | .extRd _ => s.extRead a
  | .unmappedRd => (s.cfg.openBus, s)
  | .sasiDataWr | .sasiAckselWr | .sasiResetWr | .sasiSelectWr | .sysportSramweWr | .rtcRegWr | .ramWr
  | .sramWr | .unmappedWr | .extWr _ => (s.cfg.openBus, s)

/-- `BUS.WR8` (40_bus R91). -/
def State.busWr8 (s : State) (a : Addr) (v : Byte) : State :=
  match portDecode s.cfg.map true a with
  | .sasiDataWr => s.sasiDataWr v
  | .sasiAckselWr => s.sasiAcksel
  | .sasiResetWr => s.sasiReset
  | .sasiSelectWr => s.sasiSelect v
  | .sysportSramweWr => s.sramweWrite v
  | .rtcRegWr => s.rtcWrite a v
  | .ramWr => s.ramWrite a v
  | .sramWr => s.sramWrite a v
  | .extWr _ => s.extWrite a v
  | .unmappedWr => s
  | .sasiDataRd | .sasiStatusRd | .rtcRegRd | .ramRd | .romRd | .scsiromRd | .sramRd | .unmappedRd
  | .extRd _ => s

/-- `BUS.RD16` (40_bus R92): the byte at `addr` is read first and is the more significant. -/
def State.busRd16 (s : State) (a : Addr) : BitVec 16 × State :=
  let h := s.busRd8 a
  let l := h.2.busRd8 (a + 1)
  (half h.1 l.1, l.2)

/-- `BUS.WR16` (40_bus R93). -/
def State.busWr16 (s : State) (a : Addr) (v : BitVec 16) : State :=
  (s.busWr8 a (hiByte v)).busWr8 (a + 1) (loByte v)

/-- `BUS.RD32` (40_bus R94). -/
def State.busRd32 (s : State) (a : Addr) : BitVec 32 × State :=
  let b0 := s.busRd8 a
  let b1 := b0.2.busRd8 (a + 1)
  let b2 := b1.2.busRd8 (a + 2)
  let b3 := b2.2.busRd8 (a + 3)
  (word b0.1 b1.1 b2.1 b3.1, b3.2)

/-- `BUS.WR32` (40_bus R95). -/
def State.busWr32 (s : State) (a : Addr) (v : BitVec 32) : State :=
  (((s.busWr8 a (wordByte v 0)).busWr8 (a + 1) (wordByte v 1)).busWr8 (a + 2) (wordByte v 2)).busWr8
    (a + 3) (wordByte v 3)

/-- `BUS.RD8` (40_bus R90). -/
def execBusRd8 (a : Addr) (s : State) : Host.Outcome State Fault Refusal :=
  inContext s (completes (s.busRd8 a).2 (.byte (s.busRd8 a).1))

/-- `BUS.WR8` (40_bus R91). -/
def execBusWr8 (a : Addr) (v : Byte) (s : State) : Host.Outcome State Fault Refusal :=
  inContext s (completes (s.busWr8 a v) .none)

/-- `BUS.RD16` (40_bus R92). -/
def execBusRd16 (a : Addr) (s : State) : Host.Outcome State Fault Refusal :=
  inContext s (completes (s.busRd16 a).2 (.half (s.busRd16 a).1))

/-- `BUS.WR16` (40_bus R93). -/
def execBusWr16 (a : Addr) (v : BitVec 16) (s : State) : Host.Outcome State Fault Refusal :=
  inContext s (completes (s.busWr16 a v) .none)

/-- `BUS.RD32` (40_bus R94). -/
def execBusRd32 (a : Addr) (s : State) : Host.Outcome State Fault Refusal :=
  inContext s (completes (s.busRd32 a).2 (.word (s.busRd32 a).1))

/-- `BUS.WR32` (40_bus R95). -/
def execBusWr32 (a : Addr) (v : BitVec 32) (s : State) : Host.Outcome State Fault Refusal :=
  inContext s (completes (s.busWr32 a v) .none)

/-- `BUS_RD`, the host's bus read (20_memory R62). -/
def execHostBusRd (a : Addr) (s : State) : Host.Outcome State Fault Refusal :=
  betweenFrames s (completes (s.busRd8 a).2 (.byte (s.busRd8 a).1))

/-- `BUS_WR`, the host's bus write (20_memory R62). -/
def execHostBusWr (a : Addr) (v : Byte) (s : State) : Host.Outcome State Fault Refusal :=
  betweenFrames s (completes (s.busWr8 a v) .none)

end Sys2Proof.Machine
end

