-- ==== Sys2Proof/Machine/Dma.lean ====
section
/-! DEFINITION. The transfers of a DMA channel (43_dma R141, R142, R146). -/

namespace Sys2Proof.Machine

/-- `dma[c].count - 1` (43_dma R142). With no bytes to go, which only a `DMA.XFER` of an idle channel asked for by
itself meets, 00_scope R6 gives the difference no value and the result is a free value (DESIGN CHOICE, log 29). -/
def DmaChannel.countLess (ch : DmaChannel) : BitVec 16 := if ch.count = 0 then Config.freeCount else ch.count - 1

/-- The channel after one byte has moved: pointers stepped, count less 1 (43_dma R142). -/
def DmaChannel.stepped (ch : DmaChannel) : DmaChannel :=
  { ch with src := stepPtr ch.src ch.sstep, dst := stepPtr ch.dst ch.dstep, count := ch.countLess }

/-- The two bus transactions of `DMA.XFER` (43_dma R142, 20_memory R61). -/
def State.moveByte (s : State) (c : Fin 3) : State :=
  let r := s.busRd8 (s.channel c).src
  r.2.busWr8 (r.2.channel c).dst r.1

/-- The pointers and the count of a channel after a byte (43_dma R142). -/
def State.stepChannel (s : State) (c : Fin 3) : State := s.withChannel c (s.channel c).stepped

/-- `if dma[c].count = 0: DMA.COMPLETE(c)` (43_dma R142). -/
def State.completeIfDone (s : State) (c : Fin 3) : State :=
  if (s.channel c).count = 0 then s.completeChannel c else s

/-- `DMA.XFER` (43_dma R142). -/
def State.dmaXfer (s : State) (c : Fin 3) : State := ((s.moveByte c).stepChannel c).completeIfDone c

/-- `DMA_COST[c]` (00_scope R5). -/
def State.dmaCost (s : State) (c : Fin 3) : Nat := s.cfg.dmaCost[c.val]

/-- The channel's credit is another number (43_dma R141). -/
def State.withCredit (s : State) (c : Fin 3) (n : Nat) : State :=
  s.withChannel c { s.channel c with credit := BitVec.ofNat 32 n }

/-- The loop of `DMA.STEP` (43_dma R141). `READY` is evaluated before every byte, on the line sampled
for the step (log 8). -/
def State.dmaLoop (c : Fin 3) (line : Bool) : Nat → State → State
  | 0, s => s
  | n + 1, s =>
    if (s.channel c).active ∧ s.ready c line ∧ s.dmaCost c ≤ (s.channel c).credit.toNat then
      State.dmaLoop c line n ((s.withCredit c ((s.channel c).credit.toNat - s.dmaCost c)).dmaXfer c)
    else s

/-- The turns after which the loop of `DMA.STEP` is over: a turn moves a byte or ends the loop, and the count
ends it when it comes to 0. -/
def DmaChannel.turns (ch : DmaChannel) : Nat := if ch.count = 0 then 2 ^ 16 else ch.count.toNat

/-- The credit granted to an active, ready channel, and the bytes it pays for (43_dma R141). -/
def State.dmaPaced (s : State) (c : Fin 3) (line : Bool) (used : Nat) : State :=
  if (s.channel c).active ∧ s.ready c line then
    State.dmaLoop c line (s.channel c).turns (s.withCredit c ((s.channel c).credit.toNat + used))
  else s

/-- The end of `DMA.STEP` (43_dma R141, R146): an inactive or unready channel banks no credit. -/
def State.settleCredit (s : State) (c : Fin 3) (line : Bool) : State :=
  if (s.channel c).active ∧ s.ready c line then s else s.withCredit c 0

/-- `DMA.STEP` once the owner's line is sampled (43_dma R141). -/
def State.dmaTurn (s : State) (c : Fin 3) (line : Bool) (used : Nat) : State :=
  (s.dmaPaced c line used).settleCredit c line

/-- `DMA.STEP` (43_dma R141). The line of an external owner is one bit for the whole step, sampled where the
channel is active (10_state R33, 93 U10, log 8). -/
def State.dmaStep (s : State) (c : Fin 3) (used : Nat) : State :=
  if (s.channel c).active then (s.sampledReady c).dmaTurn c s.nextReady used
  else s.dmaTurn c false used

/-- `DMA.STEP` (43_dma R141). On channel 3, which does not exist, no operation (U20, log 26). -/
def execDmaStep (c : BitVec 2) (used : BitVec 32) (s : State) : Host.Outcome State Fault Refusal :=
  inContext s (completes (match channelOf c with | some ch => s.dmaStep ch used.toNat | none => s) .none)

/-- `DMA.XFER` (43_dma R142). On channel 3, which does not exist, no operation (U20, log 26). -/
def execDmaXfer (c : BitVec 2) (s : State) : Host.Outcome State Fault Refusal :=
  inContext s (completes (match channelOf c with | some ch => s.dmaXfer ch | none => s) .none)

end Sys2Proof.Machine
end

