-- ==== Sys2Proof/Machine/Scheduler.lean ====
section
/-! DEFINITION. The frame scheduler (41_scheduler R100 to R127). -/

namespace Sys2Proof.Machine

/-! ### Formulas -/

/-- `THRESHOLD(k) = clk.budget * (k + 1) div clk.nlines` (41_scheduler R103). -/
def Clock.threshold (k : Clock) (line : Nat) : Nat := k.budget.toNat * (line + 1) / k.nlines.toNat

/-- `req = min(QUANTUM, clk.next - clk.count)` (41_scheduler R109). -/
def State.sliceRequest (s : State) : Nat := min s.cfg.quantum (s.clk.next.toNat - s.clk.count.toNat)

/-- The cycles the backend reports, brought into `1 .. req + OVERRUN_MAX` (41_scheduler R110). -/
def consumedOf (raw req overrunMax : Nat) : Nat := max 1 (min raw (req + overrunMax))

/-- The clock after a slice in which `consumed` CPU cycles passed (41_scheduler R111). -/
def Clock.spent (k : Clock) (consumed : Nat) : Clock :=
  { k with count := BitVec.ofNat 32 (k.count.toNat + consumed) }

/-- `t = clk.resid + consumed * BASE_MULT` (41_scheduler R112). -/
def subCycles (k : Clock) (consumed : Nat) : Nat := k.resid.toNat + consumed * Config.baseMult

/-- `KEY_PERIOD`, `MOUSE_PERIOD`: `max(1, clk.nlines div divisor)` (41_scheduler R114). -/
def pollPeriod (nlines : BitVec 16) (divisor : Nat) : Nat := max 1 (nlines.toNat / divisor)

/-! ### Frame start -/

/-- What `FRAME_START` makes of the clock (41_scheduler R101). -/
def Clock.startFrame (k : Clock) (c : Cfg) (m : VideoMode) : Clock :=
  let k1 := { k with nlines := BitVec.ofNat 16 m.lines, budget := BitVec.ofNat 32 (c.budget m)
                     line := 0, count := k.carry }
  { k1 with next := BitVec.ofNat 32 (k1.threshold 0) }

/-- What `FRAME_START` makes of the scheduler's registers (41_scheduler R101, R122). -/
def Sched.startFrame (r : Sched) (mode : BitVec 8) : Sched :=
  { r with mode := mode, seq := .lineStart
           skipq := if r.skipq = 0 then 0 else r.skipq - 1
           render := decide (r.skipq = 0) }

/-- `FRAME_START` with a video mode and its row of the mode table (41_scheduler R101). -/
def State.frameStart (s : State) (mode : BitVec 8) (m : VideoMode) : State :=
  { s.drewVideoMode with
    clk := s.clk.startFrame s.cfg m
    sched := s.sched.startFrame mode
    fdd := s.fdd.map fun f => { f with reading := false } }

/-! ### Scanline -/

/-- `sched.seq <- SLICE if clk.count < clk.next else LINE_END` (41_scheduler R104, R108). -/
def State.sliceOrEnd (s : State) : State :=
  { s with sched := { s.sched with
      seq := if s.clk.count.toNat < s.clk.next.toNat then .slice else .lineEnd } }

/-- A request made where a condition holds. -/
def State.requestIf (s : State) (b : Bool) (src : Src) : State := if b then s.requestSrc src else s

/-- `LINE_START` (41_scheduler R104 to R107). -/
def State.lineStart (s : State) (m : VideoMode) : State :=
  let line := s.clk.line.toNat
  let s1 := { s with clk := { s.clk with lineused := 0 } }
  let s2 := s1.requestIf (line == m.vdispEnd) .vblankStart
  let s3 := s2.requestIf (line == m.vdispStart) .vblankEnd
  let s4 := s3.drewRasterLine.requestIf (s.clk.line == s3.nextRasterLine) .raster
  s4.sliceOrEnd

/-- One operation of the CPU backend (41_scheduler R110 (b)); a read's answer goes back to it. -/
def State.backendOp (s : State) (op : BackendOp) : State :=
  match op with
  | .rd8 a => (s.busRd8 a).2.call (.answer8 (s.busRd8 a).1)
  | .wr8 a v => s.busWr8 a v
  | .rd16 a => (s.busRd16 a).2.call (.answer16 (s.busRd16 a).1)
  | .wr16 a v => s.busWr16 a v
  | .rd32 a => (s.busRd32 a).2.call (.answer32 (s.busRd32 a).1)
  | .wr32 a v => s.busWr32 a v
  | .dmaStart c src dst count ss ds => s.dmaStart c src dst count ss ds

/-- `CPU_EXEC.execute(req, irq)` (41_scheduler R110): the cycles consumed, and the state after the
backend's operations. -/
def State.execute (s : State) (req : Nat) (irq : Option (Src × Byte)) : Nat × State :=
  let t := s.nextBackend
  (consumedOf t.consumed req s.cfg.overrunMax,
    t.ops.foldl State.backendOp (s.drewBackend.call (.cpuExecute req irq)))

/-- `TIMERS.TICK` (41_scheduler R126). -/
def State.timersTick (s : State) (used : Nat) : State :=
  ((s.rtcTick used).emit (.extTick used)).drawEvents (tickAllows s.cfg)

/-- The accounting of a slice: `clk.count`, `clk.resid`, `clk.lineused` (41_scheduler R108, R111, R112). -/
def State.account (s : State) (consumed : Nat) : State :=
  let t := subCycles s.clk consumed
  { s with clk := { s.clk.spent consumed with
      resid := BitVec.ofNat 32 (t % s.cfg.clockMult)
      lineused := BitVec.ofNat 32 (s.clk.lineused.toNat + t / s.cfg.clockMult) } }

/-- What follows the backend in a slice: the accounting, the channels 0, 1, 2, the timers (41_scheduler
R108, R113). -/
def State.afterBackend (s : State) (consumed : Nat) : State :=
  let used := subCycles s.clk consumed / s.cfg.clockMult
  (((((s.account consumed).dmaStep 0 used).dmaStep 1 used).dmaStep 2 used).timersTick used).sliceOrEnd

/-- `SLICE` (41_scheduler R108): the resolution point, the backend, then the rest. -/
def State.slice (s : State) : State :=
  let r := s.resolve
  let e := r.2.execute s.sliceRequest r.1
  e.2.afterBackend e.1

/-- A poll counter at a scanline end: its next value and whether it requests (41_scheduler R116, R117). -/
def pollCount (cnt : BitVec 16) (period : Nat) : BitVec 16 × Bool :=
  if period ≤ (cnt + 1).toNat then (0, true) else (cnt + 1, false)

/-- The advance to the next scanline, or to the frame's end (41_scheduler R119). -/
def State.nextLine (s : State) : State :=
  if s.clk.line.toNat + 1 < s.clk.nlines.toNat then
    { s with
      clk := { s.clk with line := s.clk.line + 1
                          next := BitVec.ofNat 32 (s.clk.threshold (s.clk.line.toNat + 1)) }
      sched := { s.sched with seq := .lineStart } }
  else { s with sched := { s.sched with seq := .frameEnd } }

/-- `LINE_END` (41_scheduler R114 to R119). -/
def State.lineEnd (s : State) : State :=
  let s1 := if s.sched.render then s.emit (.scanline s.clk.line) else s
  let key := pollCount s.sched.keyCnt (pollPeriod s.clk.nlines s.cfg.keyDiv)
  let mouse := pollCount s.sched.mouseCnt (pollPeriod s.clk.nlines s.cfg.mouseDiv)
  let s2 := { s1 with sched := { s1.sched with keyCnt := key.1, mouseCnt := mouse.1 } }
  let s3 := (s2.requestIf key.2 .key).requestIf mouse.2 .mouse
  (s3.emit (.audioAdvance s.clk.lineused)).nextLine

/-! ### Frame end -/

/-- A fast-clear request waits to be executed: it is pending and the countdown has not begun (41_scheduler R121). -/
def Sched.fastclrDue (r : Sched) : Bool := r.fastclrPending && r.fastclrCnt == 0

/-- The execution of a fast clear, which starts the mode's `FASTCLR_FRAMES` (41_scheduler R121). -/
def State.fastclrExecuted (s : State) (m : VideoMode) : State :=
  { s with sched := { s.sched with fastclrCnt := BitVec.ofNat 2 m.fastclrFrames } }.emit .fastclrExecute

/-- The countdown of a fast clear executed before; without a request nothing (41_scheduler R121). -/
def State.fastclrCounted (s : State) : State :=
  if s.sched.fastclrPending then
    { s with sched := { s.sched with fastclrCnt := s.sched.fastclrCnt - 1
                                     fastclrPending := s.sched.fastclrCnt - 1 != 0 } }
  else s

/-- `FASTCLR_RESOLVE` with the mode's `FASTCLR_FRAMES` (41_scheduler R121). -/
def State.fastclrResolve (s : State) (m : VideoMode) : State :=
  if s.sched.fastclrDue then s.fastclrExecuted m else s.fastclrCounted

/-- `FRAMESKIP_ADAPT` with the mode's `IDEAL_MS` (41_scheduler R122). -/
def State.frameskipAdapt (s : State) (m : VideoMode) (elapsedMs : BitVec 32) : State :=
  let s := s.call (.pacing elapsedMs m.idealMs)
  if m.idealMs < elapsedMs.toNat then
    { s with sched := { s.sched with
        skipq := BitVec.ofNat 8 (min s.cfg.frameskipMax (s.sched.skipq.toNat + elapsedMs.toNat / m.idealMs)) } }
  else s

/-- `clk.count - clk.budget` (41_scheduler R120, R123). Below the budget, where no frame ends, 00_scope R6 gives the
difference no value and the result is a free value (DESIGN CHOICE, log 29). -/
def Clock.overrun (k : Clock) : BitVec 32 :=
  if k.count.toNat < k.budget.toNat then Config.freeCarry k.count k.budget else k.count - k.budget

/-- `FRAME_END` (41_scheduler R120, R123). -/
def State.frameEnd (s : State) (m : VideoMode) : State :=
  let s1 := s.fastclrResolve m
  let s2 := { s1 with clk := { s1.clk with carry := s1.clk.overrun, line := 0 } }
  let s3 := s2.emit (.frameDone s2.sched.render)
  let s4 := s3.drewElapsedMs.frameskipAdapt m s3.nextElapsedMs
  { s4 with sched := { s4.sched with seq := .idle } }

/-! ### The frame -/

/-- The micro-step `sched.seq` names (41_scheduler R100). -/
def State.microStep (s : State) (m : VideoMode) : State :=
  match s.sched.seq with
  | .idle => s
  | .lineStart => s.lineStart m
  | .slice => s.slice
  | .lineEnd => s.lineEnd
  | .frameEnd => s.frameEnd m

/-- The loop of `RUN_FRAME`: micro-steps until IDLE (41_scheduler R100), none where the given number of them
does not reach it. -/
def State.frameLoop (m : VideoMode) : Nat → State → Option State
  | 0, s => if s.sched.seq = .idle then some s else none
  | n + 1, s => if s.sched.seq = .idle then some s else State.frameLoop m n (s.microStep m)

/-- The most micro-steps after `FRAME_START`: a start and an end of each line, one slice for each cycle of
the budget at most, one frame end (70_reset R290). -/
def State.frameBound (s : State) : Nat := 2 * s.clk.nlines.toNat + s.clk.budget.toNat + 1

/-! ### Meanings -/

/-- An operation that needs the mode table's row for a video mode (U9). -/
def inMode (s : State) (mode : BitVec 8) (k : VideoMode → Host.Outcome State Fault Refusal) :
    Host.Outcome State Fault Refusal :=
  match s.cfg.videoMode? mode with
  | some m => k m
  | none => .refused .videoModeUndefined

/-- `RUN_FRAME` (41_scheduler R100). -/
def execRunFrame (s : State) : Host.Outcome State Fault Refusal :=
  betweenFrames s <| inMode s s.nextVideoMode fun m =>
    match State.frameLoop m (s.frameStart s.nextVideoMode m).frameBound (s.frameStart s.nextVideoMode m) with
    | some t => completes t .none
    | none => .fault .frameUnending

/-- `FRAME_START` (41_scheduler R101). -/
def execFrameStart (s : State) : Host.Outcome State Fault Refusal :=
  inContext s <| inMode s s.nextVideoMode fun m => completes (s.frameStart s.nextVideoMode m) .none

/-- `LINE_START` (41_scheduler R104). -/
def execLineStart (s : State) : Host.Outcome State Fault Refusal :=
  inContext s <| inMode s s.sched.mode fun m => completes (s.lineStart m) .none

/-- `SLICE` (41_scheduler R108); it requires `clk.count < clk.next`. -/
def execSlice (s : State) : Host.Outcome State Fault Refusal :=
  inContext s <|
    if s.clk.count.toNat < s.clk.next.toNat then completes s.slice .none else .refused .sliceNotDue

/-- `LINE_END` (41_scheduler R114). -/
def execLineEnd (s : State) : Host.Outcome State Fault Refusal :=
  inContext s (completes s.lineEnd .none)

/-- `FRAME_END` (41_scheduler R120). -/
def execFrameEnd (s : State) : Host.Outcome State Fault Refusal :=
  inContext s <| inMode s s.sched.mode fun m => completes (s.frameEnd m) .none

/-- `TIMERS.TICK` (41_scheduler R126). -/
def execTimersTick (used : BitVec 32) (s : State) : Host.Outcome State Fault Refusal :=
  inContext s (completes (s.timersTick used.toNat) .none)

/-- `FASTCLR_RESOLVE` (41_scheduler R121); the mode matters only where a fast clear is executed (log 13). -/
def execFastclrResolve (s : State) : Host.Outcome State Fault Refusal :=
  inContext s <|
    if s.sched.fastclrDue then inMode s s.sched.mode fun m => completes (s.fastclrResolve m) .none
    else completes s.fastclrCounted .none

/-- `FRAMESKIP_ADAPT` (41_scheduler R122). -/
def execFrameskipAdapt (elapsedMs : BitVec 32) (s : State) : Host.Outcome State Fault Refusal :=
  inContext s <| inMode s s.sched.mode fun m => completes (s.frameskipAdapt m elapsedMs) .none

/-- `IRQ.REQUEST` (42_interrupt R130). -/
def execIrqRequest (id : BitVec 4) (s : State) : Host.Outcome State Fault Refusal :=
  inContext s (completes (s.requestId id) .none)

/-- `IRQ.RESOLVE` (42_interrupt R132). -/
def execIrqResolve (s : State) : Host.Outcome State Fault Refusal :=
  inContext s (completes s.resolve.2 (.vector s.resolve.1))

end Sys2Proof.Machine
end

