-- ==== Sys2Proof/Machine/Snapshot.lean ====
section
/-! DEFINITION. The snapshot port (46_snapshot R230 to R237, 30_encoding R85): the stream, its validation and
the two operations. -/

namespace Sys2Proof.Machine

/-! ### Field encodings (30_encoding R85) -/

/-- A number as `n` bytes, most significant first. -/
def beBytes : Nat → Nat → List Byte
  | 0, _ => []
  | n + 1, v => BitVec.ofNat 8 (v / 256 ^ n) :: beBytes n v

/-- The number of bytes most significant first. -/
def beValue (bs : List Byte) : Nat := bs.foldl (fun acc b => acc * 256 + b.toNat) 0

/-- `ENC` of a scalar of `w` bits: `ceil(w/8)` bytes, big-endian. -/
def putField {w : Nat} (x : BitVec w) : List Byte := beBytes ((w + 7) / 8) x.toNat

/-- `ENC` of a one-bit field. -/
def putFlag (b : Bool) : List Byte := putField (BitVec.ofBool b)

/-- `ENC` of `irq.pend`: element `i` in bit `i mod 8` of byte `i div 8`. -/
def putPend (p : BitVec 9) : List Byte := [p.extractLsb' 0 8, (p.extractLsb' 8 1).setWidth 8]

/-- The bytes of an array of 4-bit registers, one each. -/
def putNibbles (v : List (BitVec 4)) : List Byte := v.map fun n => n.setWidth 8

/-- The first `n` bytes of a stream and the rest, none where it is too short. -/
def getBytes (n : Nat) (l : List Byte) : Option (List Byte × List Byte) :=
  if l.length < n then none else some (l.take n, l.drop n)

/-- `DEC` of a scalar of `w` bits; none where the stream is too short or an unused upper bit is set. -/
def getField (w : Nat) (l : List Byte) : Option (BitVec w × List Byte) :=
  (getBytes ((w + 7) / 8) l).bind fun r =>
    if beValue r.1 < 2 ^ w then some (BitVec.ofNat w (beValue r.1), r.2) else none

/-- `DEC` of a one-bit field. -/
def getFlag (l : List Byte) : Option (Bool × List Byte) :=
  (getField 1 l).map fun r => (r.1 == 1, r.2)

/-- `DEC` of `irq.pend`; none where an unused bit is set. -/
def getPend (l : List Byte) : Option (BitVec 9 × List Byte) :=
  match l with
  | lo :: hi :: rest => if hi.toNat ≤ 1 then some (hi.setWidth 1 ++ lo, rest) else none
  | _ => none

/-- `DEC` of an array of 4-bit registers; none where an upper nibble is not zero. -/
def getNibbles (n : Nat) (l : List Byte) : Option (List (BitVec 4) × List Byte) :=
  (getBytes n l).bind fun r =>
    if r.1.all fun b => decide (b.toNat ≤ 15) then some (r.1.map fun b => b.setWidth 4, r.2) else none

/-- The first `n` elements of a list as a vector. -/
def vectorOf {α : Type} (n : Nat) (d : α) (l : List α) : Vector α n :=
  ⟨((List.range n).map fun i => l.getD i d).toArray, by simp⟩

/-- The memory whose bytes from `off` on are those of a list, and which has no other. -/
def Memory.ofBytes : Nat → List Byte → Memory
  | _, [] => []
  | off, b :: bs => Memory.entry off b (Memory.ofBytes (off + 1) bs)

/-! ### Components, in the order of Table S -/

/-- CLOCK, 28 bytes. -/
def putClock (k : Clock) : List Byte :=
  putField k.budget ++ (putField k.line ++ (putField k.nlines ++ (putField k.next ++
    (putField k.resid ++ (putField k.count ++ (putField k.carry ++ putField k.lineused))))))

/-- CLOCK read back. -/
def getClock (l : List Byte) : Option (Clock × List Byte) := do
  let (budget, l) ← getField 32 l
  let (line, l) ← getField 16 l
  let (nlines, l) ← getField 16 l
  let (next, l) ← getField 32 l
  let (resid, l) ← getField 32 l
  let (count, l) ← getField 32 l
  let (carry, l) ← getField 32 l
  let (lineused, l) ← getField 32 l
  some ({ budget, line, nlines, next, resid, count, carry, lineused }, l)

/-- SCHED, 10 bytes. -/
def putSched (r : Sched) : List Byte :=
  putField r.seq.code ++ (putField r.mode ++ (putFlag r.render ++ (putField r.skipq ++
    (putField r.keyCnt ++ (putField r.mouseCnt ++ (putFlag r.fastclrPending ++ putField r.fastclrCnt))))))

/-- SCHED read back; only `seq` = IDLE is accepted (46_snapshot R235 (c)). -/
def getSched (l : List Byte) : Option (Sched × List Byte) := do
  let (seq, l) ← getField 3 l
  let (mode, l) ← getField 8 l
  let (render, l) ← getFlag l
  let (skipq, l) ← getField 8 l
  let (keyCnt, l) ← getField 16 l
  let (mouseCnt, l) ← getField 16 l
  let (fastclrPending, l) ← getFlag l
  let (fastclrCnt, l) ← getField 2 l
  if seq = Seq.idle.code then
    some ({ seq := .idle, mode, render, skipq, keyCnt, mouseCnt, fastclrPending, fastclrCnt }, l)
  else none

/-- One DMA channel, 16 bytes. -/
def putChannel (c : DmaChannel) : List Byte :=
  putField c.src ++ (putField c.dst ++ (putField c.count ++ (putFlag c.active ++ (putField c.sstep ++
    (putField c.dstep ++ (putField c.credit ++ putFlag c.done))))))

/-- One DMA channel read back. -/
def getChannel (l : List Byte) : Option (DmaChannel × List Byte) := do
  let (src, l) ← getField 24 l
  let (dst, l) ← getField 24 l
  let (count, l) ← getField 16 l
  let (active, l) ← getFlag l
  let (sstep, l) ← getField 2 l
  let (dstep, l) ← getField 2 l
  let (credit, l) ← getField 32 l
  let (done, l) ← getFlag l
  some ({ src, dst, count, active, sstep, dstep, credit, done }, l)

/-- DMA, 48 bytes, instance-major. -/
def putDma (v : Vector DmaChannel 3) : List Byte :=
  putChannel v[0] ++ (putChannel v[1] ++ putChannel v[2])

/-- DMA read back. -/
def getDma (l : List Byte) : Option (Vector DmaChannel 3 × List Byte) := do
  let (c0, l) ← getChannel l
  let (c1, l) ← getChannel l
  let (c2, l) ← getChannel l
  some (#v[c0, c1, c2], l)

/-- SASI, 283 bytes. -/
def putSasi (d : Sasi) : List Byte :=
  putField d.phase.code ++ (putField d.device ++ (putField d.unit ++ (d.cmd.toList ++
    (putField d.cmdptr ++ (putField d.sector ++ (putField d.blocks ++ (putFlag d.rw ++
    (d.buf.toList ++ (putField d.bufptr ++ (putField d.stat ++ (putField d.error ++
    (d.sense.toList ++ (putField d.senseptr ++ putField d.vptr)))))))))))))

/-- SASI read back; a reserved phase code is rejected (46_snapshot R235 (c)). -/
def getSasi (l : List Byte) : Option (Sasi × List Byte) := do
  let (phase, l) ← getField 4 l
  let (device, l) ← getField 7 l
  let (unit, l) ← getField 1 l
  let (cmd, l) ← getBytes 6 l
  let (cmdptr, l) ← getField 3 l
  let (sector, l) ← getField 32 l
  let (blocks, l) ← getField 16 l
  let (rw, l) ← getFlag l
  let (buf, l) ← getBytes 256 l
  let (bufptr, l) ← getField 9 l
  let (stat, l) ← getField 8 l
  let (error, l) ← getField 8 l
  let (sense, l) ← getBytes 4 l
  let (senseptr, l) ← getField 3 l
  let (vptr, l) ← getField 4 l
  let phase ← Phase.ofCode phase
  some ({ phase, device, unit, cmd := vectorOf 6 0 cmd, cmdptr, sector, blocks, rw
          buf := vectorOf 256 0 buf, bufptr, stat, error, sense := vectorOf 4 0 sense
          senseptr, vptr }, l)

/-- FDD, two bytes per drive: `inserted`, `reading`. -/
def putFdd (ds : List Fdd) : List Byte := ds.flatMap fun f => putFlag f.inserted ++ putFlag f.reading

/-- FDD read back, `n` drives. -/
def getFdd : Nat → List Byte → Option (List (Bool × Bool) × List Byte)
  | 0, l => some ([], l)
  | n + 1, l => do
    let (inserted, l) ← getFlag l
    let (reading, l) ← getFlag l
    let (rest, l) ← getFdd n l
    some ((inserted, reading) :: rest, l)

/-- RTC, 23 bytes. -/
def putRtc (r : Rtc) : List Byte :=
  putField r.mode ++ (putField r.r15 ++ (putNibbles r.b1.toList ++ (putField r.ta ++ putField r.tb)))

/-- RTC read back. -/
def getRtc (l : List Byte) : Option (Rtc × List Byte) := do
  let (mode, l) ← getField 4 l
  let (r15, l) ← getField 4 l
  let (b1, l) ← getNibbles 13 l
  let (ta, l) ← getField 32 l
  let (tb, l) ← getField 32 l
  some ({ mode, r15, b1 := vectorOf 13 0 b1, ta, tb }, l)

/-! ### The stream -/

/-- The component names of Table S in ASCII capitals (30_encoding R85). -/
def nameClock : List Byte := [0x43, 0x4C, 0x4F, 0x43, 0x4B]
/-- "SCHED" (30_encoding R85). -/
def nameSched : List Byte := [0x53, 0x43, 0x48, 0x45, 0x44]
/-- "IRQ" (30_encoding R85). -/
def nameIrq : List Byte := [0x49, 0x52, 0x51]
/-- "DMA" (30_encoding R85). -/
def nameDma : List Byte := [0x44, 0x4D, 0x41]
/-- "SASI" (30_encoding R85). -/
def nameSasi : List Byte := [0x53, 0x41, 0x53, 0x49]
/-- "FDD" (30_encoding R85). -/
def nameFdd : List Byte := [0x46, 0x44, 0x44]
/-- "RTC" (30_encoding R85). -/
def nameRtc : List Byte := [0x52, 0x54, 0x43]
/-- "SYSPORT" (30_encoding R85). -/
def nameSysport : List Byte := [0x53, 0x59, 0x53, 0x50, 0x4F, 0x52, 0x54]
/-- "SRAM" (30_encoding R85). -/
def nameSram : List Byte := [0x53, 0x52, 0x41, 0x4D]
/-- "RAM" (30_encoding R85). -/
def nameRam : List Byte := [0x52, 0x41, 0x4D]

/-- The tag of a block: in durable mode the length of its name and the name (30_encoding R85). -/
def tag (mode : SnapMode) (name : List Byte) : List Byte :=
  match mode with
  | .fast => []
  | .durable => BitVec.ofNat 8 name.length :: name

/-- The stream after a tag, none where the tag is not there (46_snapshot R235 (b)). -/
def dropTag (mode : SnapMode) (name l : List Byte) : Option (List Byte) :=
  (getBytes (tag mode name).length l).bind fun r => if r.1 = tag mode name then some r.2 else none

/-- `SIZE(mode)`, the length of the whole stream (46_snapshot R232). -/
def streamSize (c : Cfg) (mode : SnapMode) : Nat :=
  16783 + 2 * c.numFdd + c.ramSize +
    match mode with
    | .fast => 0
    | .durable => 50

/-- The blocks of the stream, in the order of the registry (46_snapshot R230, R237). -/
def putBlocks (s : State) (mode : SnapMode) : List Byte :=
  tag mode nameClock ++ (putClock s.clk ++ (tag mode nameSched ++ (putSched s.sched ++
    (tag mode nameIrq ++ (putPend s.pend ++ (tag mode nameDma ++ (putDma s.dma ++
    (tag mode nameSasi ++ (putSasi s.sasi ++ (tag mode nameFdd ++ (putFdd s.fdd ++
    (tag mode nameRtc ++ (putRtc s.rtc ++ (tag mode nameSysport ++ (putFlag s.sramWe ++
    (tag mode nameSram ++ (Memory.readRange s.sram 0 sramSize ++
    (tag mode nameRam ++ Memory.readRange s.ram 0 s.cfg.ramSize))))))))))))))))))

/-- `BE32(n)`, the length word of a stream of `n` bytes (46_snapshot R230, 30_encoding R85). To a length of 2^32 or
more, which 00_scope R5 does not exclude since it puts no bound on `NUM_FDD`, the spec gives no four bytes: they are
a free value (DESIGN CHOICE, log 30). -/
def lengthWord (n : Nat) : List Byte := if n < 2 ^ 32 then beBytes 4 n else putField (Config.freeLength n)

/-- The buffer `SAVE` returns (46_snapshot R230). -/
def State.saved (s : State) (mode : SnapMode) : List Byte :=
  lengthWord (streamSize s.cfg mode) ++ putBlocks s mode

/-- The fields a snapshot carries (10_state Table S). -/
structure Snapshot where
  clk : Clock
  sched : Sched
  pend : BitVec 9
  dma : Vector DmaChannel 3
  sasi : Sasi
  fdd : List (Bool × Bool)
  rtc : Rtc
  sramWe : Bool
  sram : Memory
  ram : Memory

/-- The blocks of a stream read back. -/
def getBlocks (c : Cfg) (mode : SnapMode) (l : List Byte) : Option Snapshot := do
  let l ← dropTag mode nameClock l
  let (clk, l) ← getClock l
  let l ← dropTag mode nameSched l
  let (sched, l) ← getSched l
  let l ← dropTag mode nameIrq l
  let (pend, l) ← getPend l
  let l ← dropTag mode nameDma l
  let (dma, l) ← getDma l
  let l ← dropTag mode nameSasi l
  let (sasi, l) ← getSasi l
  let l ← dropTag mode nameFdd l
  let (fdd, l) ← getFdd c.numFdd l
  let l ← dropTag mode nameRtc l
  let (rtc, l) ← getRtc l
  let l ← dropTag mode nameSysport l
  let (sramWe, l) ← getFlag l
  let l ← dropTag mode nameSram l
  let (sram, l) ← getBytes sramSize l
  let l ← dropTag mode nameRam l
  let (ram, _) ← getBytes c.ramSize l
  some { clk, sched, pend, dma, sasi, fdd, rtc, sramWe
         sram := Memory.ofBytes 0 sram, ram := Memory.ofBytes 0 ram }

/-- An active channel has a count of at least 1 (46_snapshot R235 (c)). -/
def DmaChannel.valid (ch : DmaChannel) : Bool := !ch.active || ch.count != 0

/-- The pointers and the device of the SASI controller are in range (46_snapshot R235 (c)). -/
def Sasi.valid (d : Sasi) : Bool :=
  decide (d.cmdptr.toNat ≤ 5 ∧ d.bufptr.toNat ≤ 255 ∧ d.senseptr.toNat ≤ 3 ∧ d.vptr.toNat ≤ 9 ∧
    (d.device.toNat ≤ 7 ∨ d.device = 0x7F))

/-- The value checks of 46_snapshot R235 (c) that the field decoding has not made. -/
def Snapshot.valid (c : Cfg) (n : Snapshot) : Bool :=
  decide (n.clk.line = 0 ∧ n.sched.skipq.toNat ≤ c.frameskipMax) && n.dma.toList.all DmaChannel.valid &&
    n.sasi.valid

/-- The snapshot a buffer holds, none where `VALID(mode, buf)` is false (46_snapshot R235). -/
def parseSnapshot (c : Cfg) (mode : SnapMode) (buf : List Byte) : Option Snapshot :=
  match getBytes 4 buf with
  | none => none
  | some (len, l) =>
    if beValue len = buf.length ∧ buf.length = streamSize c mode then
      (getBlocks c mode l).filter (Snapshot.valid c)
    else none

/-- Every row of Table S set from a snapshot, nothing else changed (46_snapshot R231). -/
def State.restore (s : State) (n : Snapshot) : State :=
  { s with
    clk := n.clk, sched := n.sched, pend := n.pend, dma := n.dma, sasi := n.sasi
    fdd := List.zipWith (fun f g => { f with inserted := g.1, reading := g.2 }) s.fdd n.fdd
    rtc := n.rtc, sramWe := n.sramWe, sram := n.sram, ram := n.ram }

/-- `SAVE` (46_snapshot R230). -/
def execSave (mode : SnapMode) (s : State) : Host.Outcome State Fault Refusal :=
  betweenFrames s (completes s (.buffer (s.saved mode)))

/-- `LOAD` (46_snapshot R231): a rejected buffer leaves every field as it was (60_exceptions R245). -/
def execLoad (mode : SnapMode) (buf : List Byte) (s : State) : Host.Outcome State Fault Refusal :=
  betweenFrames s <|
    match parseSnapshot s.cfg mode buf with
    | some n => completes (s.restore n) .ok
    | none => completes s .stateIntegrityError

end Sys2Proof.Machine
end

