-- ==== Sys2Proof/Machine/Fetch.lean ====
section
/-! DEFINITION. What the machine performs next: the micro-step `sched.seq` names while a frame is in progress,
else the first operation asked for (41_scheduler R100, 70_reset R280; log 1). -/

namespace Sys2Proof.Machine

/-- Whether a frame is in progress (10_state R11). -/
def State.inFrame (s : State) : Bool := s.alive && decide (s.sched.seq ≠ .idle)

/-- The next request and the state without it, none where nothing is to be performed. While a frame is in
progress it runs to completion before the next operation begins (10_state R12, 70_reset R280). -/
def State.fetch (s : State) : Option (Request × State) :=
  if s.inFrame then some (.seq s.sched.seq.code, s)
  else
    match s.queue with
    | [] => none
    | r :: rest => some (r, { s with queue := rest })

/-- The state in which a request is the next to be performed. -/
def State.asked (s : State) (r : Request) : State :=
  { s with queue := r :: s.queue, sched := { s.sched with seq := .idle } }

end Sys2Proof.Machine
end

