-- ==== Sys2Proof/Machine/Dispatch.lean ====
section
/-! DEFINITION. The dispatch: one arm per operation, each one direct call of its meaning. -/

namespace Sys2Proof.Machine

def exec (i : Instr) (s : State) : Host.Outcome State Fault Refusal :=
  match i with
  | .powerOn cfg ramInit sramInit => Sys2Proof.Machine.execPowerOn cfg ramInit sramInit s
  | .shutdown => Sys2Proof.Machine.execShutdown s
  | .reset => Sys2Proof.Machine.execReset s
  | .runFrame => Sys2Proof.Machine.execRunFrame s
  | .save mode => Sys2Proof.Machine.execSave mode s
  | .load mode buf => Sys2Proof.Machine.execLoad mode buf s
  | .hostBusRd a => Sys2Proof.Machine.execHostBusRd a s
  | .hostBusWr a v => Sys2Proof.Machine.execHostBusWr a v s
  | .fddInsert d h => Sys2Proof.Machine.execFddInsert d h s
  | .fddEject d => Sys2Proof.Machine.execFddEject d s
  | .fddGetImage d => Sys2Proof.Machine.execFddGetImage d s
  | .fddSetImage d h => Sys2Proof.Machine.execFddSetImage d h s
  | .fddIsReading d => Sys2Proof.Machine.execFddIsReading d s
  | .busRd8 a => Sys2Proof.Machine.execBusRd8 a s
  | .busWr8 a v => Sys2Proof.Machine.execBusWr8 a v s
  | .busRd16 a => Sys2Proof.Machine.execBusRd16 a s
  | .busWr16 a v => Sys2Proof.Machine.execBusWr16 a v s
  | .busRd32 a => Sys2Proof.Machine.execBusRd32 a s
  | .busWr32 a v => Sys2Proof.Machine.execBusWr32 a v s
  | .sasiDataRd => Sys2Proof.Machine.execSasiDataRd s
  | .sasiDataWr v => Sys2Proof.Machine.execSasiDataWr v s
  | .sasiStatusRd => Sys2Proof.Machine.execSasiStatusRd s
  | .sasiAckselWr v => Sys2Proof.Machine.execSasiAckselWr v s
  | .sasiResetWr v => Sys2Proof.Machine.execSasiResetWr v s
  | .sasiSelectWr v => Sys2Proof.Machine.execSasiSelectWr v s
  | .sysportSramweWr v => Sys2Proof.Machine.execSysportSramweWr v s
  | .rtcRegRd a => Sys2Proof.Machine.execRtcRegRd a s
  | .rtcRegWr a v => Sys2Proof.Machine.execRtcRegWr a v s
  | .ramRd a => Sys2Proof.Machine.execRamRd a s
  | .ramWr a v => Sys2Proof.Machine.execRamWr a v s
  | .romRd a => Sys2Proof.Machine.execRomRd a s
  | .scsiromRd a => Sys2Proof.Machine.execScsiromRd a s
  | .sramRd a => Sys2Proof.Machine.execSramRd a s
  | .sramWr a v => Sys2Proof.Machine.execSramWr a v s
  | .unmappedRd a => Sys2Proof.Machine.execUnmappedRd a s
  | .unmappedWr a v => Sys2Proof.Machine.execUnmappedWr a v s
  | .extRd a => Sys2Proof.Machine.execExtRd a s
  | .extWr a v => Sys2Proof.Machine.execExtWr a v s
  | .sasiCmdbyte v => Sys2Proof.Machine.execSasiCmdbyte v s
  | .sasiDataout v => Sys2Proof.Machine.execSasiDataout v s
  | .sasiVendorbyte v => Sys2Proof.Machine.execSasiVendorbyte v s
  | .sasiViolationWr v => Sys2Proof.Machine.execSasiViolationWr v s
  | .sasiNopWr v => Sys2Proof.Machine.execSasiNopWr v s
  | .sasiDatain => Sys2Proof.Machine.execSasiDatain s
  | .sasiStatusbyte => Sys2Proof.Machine.execSasiStatusbyte s
  | .sasiMsgbyte => Sys2Proof.Machine.execSasiMsgbyte s
  | .sasiSensebyte => Sys2Proof.Machine.execSasiSensebyte s
  | .sasiViolationRd => Sys2Proof.Machine.execSasiViolationRd s
  | .sasiNopRd => Sys2Proof.Machine.execSasiNopRd s
  | .sasiCmdTestReady b => Sys2Proof.Machine.execSasiCmdTestReady b s
  | .sasiCmdRecalibrate b => Sys2Proof.Machine.execSasiCmdRecalibrate b s
  | .sasiCmdRequestSense b => Sys2Proof.Machine.execSasiCmdRequestSense b s
  | .sasiCmdFormat b => Sys2Proof.Machine.execSasiCmdFormat b s
  | .sasiCmdRead b => Sys2Proof.Machine.execSasiCmdRead b s
  | .sasiCmdWrite b => Sys2Proof.Machine.execSasiCmdWrite b s
  | .sasiCmdSeek b => Sys2Proof.Machine.execSasiCmdSeek b s
  | .sasiCmdVendorC2 b => Sys2Proof.Machine.execSasiCmdVendorC2 b s
  | .sasiCmdUnsupported op b => Sys2Proof.Machine.execSasiCmdUnsupported op b s
  | .frameStart => Sys2Proof.Machine.execFrameStart s
  | .lineStart => Sys2Proof.Machine.execLineStart s
  | .slice => Sys2Proof.Machine.execSlice s
  | .lineEnd => Sys2Proof.Machine.execLineEnd s
  | .frameEnd => Sys2Proof.Machine.execFrameEnd s
  | .irqRequest id => Sys2Proof.Machine.execIrqRequest id s
  | .irqResolve => Sys2Proof.Machine.execIrqResolve s
  | .dmaStart c src dst count sstep dstep => Sys2Proof.Machine.execDmaStart c src dst count sstep dstep s
  | .dmaStep c used => Sys2Proof.Machine.execDmaStep c used s
  | .dmaXfer c => Sys2Proof.Machine.execDmaXfer c s
  | .dmaComplete c => Sys2Proof.Machine.execDmaComplete c s
  | .fastclrRequest => Sys2Proof.Machine.execFastclrRequest s
  | .fddReadSector d lba => Sys2Proof.Machine.execFddReadSector d lba s
  | .fddWriteSector d lba bs => Sys2Proof.Machine.execFddWriteSector d lba bs s
  | .timersTick used => Sys2Proof.Machine.execTimersTick used s
  | .rtcTick used => Sys2Proof.Machine.execRtcTick used s
  | .sasiExecute => Sys2Proof.Machine.execSasiExecute s
  | .sasiEnterStatus => Sys2Proof.Machine.execSasiEnterStatus s
  | .imgRead h off n => Sys2Proof.Machine.execImgRead h off n s
  | .imgWrite h off bs => Sys2Proof.Machine.execImgWrite h off bs s
  | .imgOk h off n => Sys2Proof.Machine.execImgOk h off n s
  | .fastclrResolve => Sys2Proof.Machine.execFastclrResolve s
  | .frameskipAdapt elapsedMs => Sys2Proof.Machine.execFrameskipAdapt elapsedMs s

end Sys2Proof.Machine
end

