-- ==== Sys2Proof/Machine/Step.lean ====
section
/-! DEFINITION. One step of the machine: the next operation fetched, decoded and performed (00_scope R8). -/

namespace Sys2Proof.Machine

/-- One step. Where nothing is to be performed the block does nothing (00_scope R4). -/
def step (s : State) : Host.Outcome State Fault Refusal :=
  match s.fetch with
  | none => .next s
  | some (r, t) =>
    match decode s.cfg r with
    | .ok i => exec i t
    | .error e => .refused (.undecodable e)

/-- The state in which the operation of an opcode-table word is the next to be performed (log 5). -/
def State.withFetchWord (s : State) (nbits w : Nat) : State :=
  match requestOfTableWord s.cfg nbits w with
  | some r => s.asked r
  | none => s

end Sys2Proof.Machine
end

