-- ==== Sys2Proof/Safety.lean ====
section
/-! DEFINITION. The terms in which safety is said: the invariant of the machine, the condition under which an
operation completes, the transitions the SASI controller may make, when the bytes of a snapshot buffer are valid and
what stands in them. -/

namespace Sys2Proof.Machine

/-- What holds in every state the machine reaches: the configuration is well formed (00_scope R5), the
memories are in their canonical form, there is an entry for every drive (10_state R20), an active channel has
bytes to move (10_state R17), the SASI pointers and device are in range (10_state R19), the frame-skip counter
does not pass its cap (10_state R13). -/
structure State.Inv (s : State) : Prop where
  cfg : s.cfg.wf = true
  ram : Memory.wf s.cfg.ramSize s.ram = true
  sram : Memory.wf sramSize s.sram = true
  store : ∀ p ∈ s.store, Memory.wf p.2.size p.2.bytes = true
  drives : s.fdd.length = s.cfg.numFdd
  channels : ∀ c : Fin 3, (s.channel c).active = true → (s.channel c).count ≠ 0
  sasi : s.sasi.valid = true
  skipq : s.sched.skipq.toNat ≤ s.cfg.frameskipMax

/-- The scanline index is below the scanline count while a frame is in progress and 0 between frames
(10_state R11). -/
def State.LineInv (s : State) : Prop :=
  if s.sched.seq = .idle then s.clk.line = 0 else s.clk.line.toNat < s.clk.nlines.toNat

/-- The mode table defines a video mode (70_reset R276). -/
def State.modeDefined (s : State) (mode : BitVec 8) : Bool := (s.cfg.videoMode? mode).isSome

/-- The host may issue an operation: there is a context and no frame is in progress (70_reset R280). -/
def State.hostReady (s : State) : Bool := s.alive && s.sched.seq == .idle

/-- The conditions under which the spec gives an operation its effect: a context (70_reset R271), for a HOST
operation no frame in progress (R280), for `POWER_ON` a configuration that is well formed or lacks a ROM
(60_exceptions R242), for a micro-step a defined video mode (70_reset R276), for `SLICE` its own requirement
(41_scheduler R108), for `RUN_FRAME` the bounds of 10_state R32. -/
def Runnable (i : Instr) (s : State) : Bool :=
  match i with
  | .powerOn c _ _ => (!s.alive || s.sched.seq == .idle) && (!c.bootRomOk || !c.cgRomOk || c.paramsWf)
  | .runFrame => s.hostReady && s.cfg.wf && s.cfg.noOverflow && s.modeDefined s.nextVideoMode
  | .shutdown | .reset | .save _ | .load _ _ | .hostBusRd _ | .hostBusWr _ _ | .fddInsert _ _ | .fddEject _
  | .fddGetImage _ | .fddSetImage _ _ | .fddIsReading _ => s.hostReady
  | .frameStart => s.alive && s.modeDefined s.nextVideoMode
  | .lineStart | .frameEnd | .frameskipAdapt _ => s.alive && s.modeDefined s.sched.mode
  | .fastclrResolve => s.alive && (!s.sched.fastclrDue || s.modeDefined s.sched.mode)
  | .slice => s.alive && decide (s.clk.count.toNat < s.clk.next.toNat)
  | .busRd8 _ | .busWr8 _ _ | .busRd16 _ | .busWr16 _ _ | .busRd32 _ | .busWr32 _ _ | .sasiDataRd
  | .sasiDataWr _ | .sasiStatusRd | .sasiAckselWr _ | .sasiResetWr _ | .sasiSelectWr _ | .sysportSramweWr _
  | .rtcRegRd _ | .rtcRegWr _ _ | .ramRd _ | .ramWr _ _ | .romRd _ | .scsiromRd _ | .sramRd _ | .sramWr _ _
  | .unmappedRd _ | .unmappedWr _ _ | .extRd _ | .extWr _ _ | .sasiCmdbyte _ | .sasiDataout _
  | .sasiVendorbyte _ | .sasiViolationWr _ | .sasiNopWr _ | .sasiDatain | .sasiStatusbyte | .sasiMsgbyte
  | .sasiSensebyte | .sasiViolationRd | .sasiNopRd | .sasiCmdTestReady _ | .sasiCmdRecalibrate _
  | .sasiCmdRequestSense _ | .sasiCmdFormat _ | .sasiCmdRead _ | .sasiCmdWrite _ | .sasiCmdSeek _
  | .sasiCmdVendorC2 _ | .sasiCmdUnsupported _ _ | .lineEnd | .irqRequest _ | .irqResolve
  | .dmaStart _ _ _ _ _ _ | .dmaStep _ _ | .dmaXfer _ | .dmaComplete _ | .fastclrRequest
  | .fddReadSector _ _ | .fddWriteSector _ _ _ | .timersTick _ | .rtcTick _ | .sasiExecute | .sasiEnterStatus
  | .imgRead _ _ _ | .imgWrite _ _ _ | .imgOk _ _ _ => s.alive

/-- The operations that carry the frame: what the host may ask for, and the micro-step `sched.seq` names
(30_encoding R71, R89). -/
def drivesFrame (i : Instr) (s : State) : Bool :=
  match i with
  | .powerOn _ _ _ | .shutdown | .reset | .runFrame | .save _ | .load _ _ | .hostBusRd _ | .hostBusWr _ _
  | .fddInsert _ _ | .fddEject _ | .fddGetImage _ | .fddSetImage _ _ | .fddIsReading _ => true
  | .frameStart => s.sched.seq == .idle
  | .lineStart => s.sched.seq == .lineStart
  | .slice => s.sched.seq == .slice
  | .lineEnd => s.sched.seq == .lineEnd
  | .frameEnd => s.sched.seq == .frameEnd
  | _ => false

/-- The phases the table of 44_sasi R185 lists after a phase, for the operations a bus transaction can reach. -/
def Phase.mayFollow : Phase → List Phase
  | .busFree => [.busFree, .selection]
  | .selection => [.selection, .command, .busFree]
  | .command => [.command, .data, .status, .senseStatus, .vendorInit, .busFree]
  | .data => [.data, .status, .busFree]
  | .status => [.status, .message, .busFree]
  | .message => [.message, .busFree]
  | .senseStatus => [.senseStatus, .status, .busFree]
  | .vendorInit => [.vendorInit, .status, .busFree]

/-! ### A valid snapshot buffer, said of its bytes (46_snapshot R235) -/

/-- Byte `i` of a buffer, as a number. -/
def bufferByte (buf : List Byte) (i : Nat) : Nat := (buf.getD i 0).toNat

/-- The `n` bytes of a buffer from `i` on as a number, the most significant first (30_encoding R85). -/
def bufferValue (buf : List Byte) : Nat → Nat → Nat
  | _, 0 => 0
  | i, n + 1 => bufferByte buf i * 2 ^ (8 * n) + bufferValue buf (i + 1) n

/-- The tag bytes that precede a place of the stream: none in fast mode (30_encoding R85). -/
def tagged (mode : SnapMode) (n : Nat) : Nat :=
  match mode with
  | .fast => 0
  | .durable => n

/-- 46_snapshot R235 (a): the buffer has the stream's length, and its first four bytes give it. -/
def SnapshotLength (c : Cfg) (mode : SnapMode) (buf : List Byte) : Prop :=
  buf.length = 16783 + 2 * c.numFdd + c.ramSize + tagged mode 50 ∧
    bufferValue buf 0 4 = buf.length

/-- Where each block of a durable stream begins, and its name (30_encoding R85). -/
def blockNames (c : Cfg) : List (Nat × List Char) :=
  [(4, ['C', 'L', 'O', 'C', 'K']), (38, ['S', 'C', 'H', 'E', 'D']), (54, ['I', 'R', 'Q']), (60, ['D', 'M', 'A']),
   (112, ['S', 'A', 'S', 'I']), (400, ['F', 'D', 'D']), (404 + 2 * c.numFdd, ['R', 'T', 'C']),
   (431 + 2 * c.numFdd, ['S', 'Y', 'S', 'P', 'O', 'R', 'T']), (440 + 2 * c.numFdd, ['S', 'R', 'A', 'M']),
   (16829 + 2 * c.numFdd, ['R', 'A', 'M'])]

/-- 46_snapshot R235 (b): at the start of each block the length of its name and the name. -/
def SnapshotNames (c : Cfg) (buf : List Byte) : Prop :=
  ∀ p ∈ blockNames c,
    ((buf.drop p.1).take (p.2.length + 1)).map BitVec.toNat = p.2.length :: p.2.map Char.toNat

/-- The bytes of a stream whose value R235 (c) limits, each with its greatest value: the unused upper bits of the
scalars narrower than their bytes, `sched.seq`, `clk.line`, `sched.skipq`, the SASI pointers. -/
def byteLimits (c : Cfg) (mode : SnapMode) : List (Nat × Nat) :=
  let clk := 4 + tagged mode 6
  let sched := 32 + tagged mode 12
  let irq := 42 + tagged mode 16
  let dma := 44 + tagged mode 20
  let sasi := 92 + tagged mode 25
  let rtc := 375 + 2 * c.numFdd + tagged mode 33
  let sysport := 398 + 2 * c.numFdd + tagged mode 41
  [(clk + 4, 0), (clk + 5, 0),
   (sched, 0), (sched + 2, 1), (sched + 3, c.frameskipMax), (sched + 8, 1), (sched + 9, 3), (irq + 1, 1),
   (dma + 8, 1), (dma + 9, 3), (dma + 10, 3), (dma + 15, 1),
   (dma + 24, 1), (dma + 25, 3), (dma + 26, 3), (dma + 31, 1),
   (dma + 40, 1), (dma + 41, 3), (dma + 42, 3), (dma + 47, 1),
   (sasi + 2, 1), (sasi + 9, 5), (sasi + 16, 1), (sasi + 273, 0), (sasi + 281, 3), (sasi + 282, 9),
   (rtc, 15), (rtc + 1, 15), (rtc + 2, 15), (rtc + 3, 15), (rtc + 4, 15), (rtc + 5, 15), (rtc + 6, 15),
   (rtc + 7, 15), (rtc + 8, 15), (rtc + 9, 15), (rtc + 10, 15), (rtc + 11, 15), (rtc + 12, 15), (rtc + 13, 15),
   (rtc + 14, 15), (sysport, 1)]

/-- 46_snapshot R235 (c): the limited bytes, the flags of the drives, the SASI phase and device, and an active DMA
channel's count. -/
def SnapshotFields (c : Cfg) (mode : SnapMode) (buf : List Byte) : Prop :=
  (∀ p ∈ byteLimits c mode, bufferByte buf p.1 ≤ p.2) ∧
    (∀ i, i < 2 * c.numFdd → bufferByte buf (375 + tagged mode 29 + i) ≤ 1) ∧
    bufferByte buf (92 + tagged mode 25) ∈ [0, 1, 2, 3, 4, 5, 9, 10] ∧
    (bufferByte buf (93 + tagged mode 25) ≤ 7 ∨ bufferByte buf (93 + tagged mode 25) = 0x7F) ∧
    ∀ ch : Fin 3, bufferByte buf (52 + tagged mode 20 + 16 * ch.val) = 1 →
      bufferByte buf (50 + tagged mode 20 + 16 * ch.val) ≠ 0 ∨ bufferByte buf (51 + tagged mode 20 + 16 * ch.val) ≠ 0

/-- `VALID(mode, buf)` (46_snapshot R235). -/
def SnapshotValid (c : Cfg) (mode : SnapMode) (buf : List Byte) : Prop :=
  SnapshotLength c mode buf ∧ (mode = .durable → SnapshotNames c buf) ∧ SnapshotFields c mode buf

/-! ### What stands in a stream, said of its bytes (46_snapshot R230, 30_encoding R85) -/

/-- The scalars of a DMA channel whose block begins at `o`, in the order of Table S: where each begins, its bytes,
its value. -/
def channelScalars (o : Nat) (ch : DmaChannel) : List (Nat × Nat × Nat) :=
  [(o, 3, ch.src.toNat), (o + 3, 3, ch.dst.toNat), (o + 6, 2, ch.count.toNat), (o + 8, 1, ch.active.toNat),
   (o + 9, 1, ch.sstep.toNat), (o + 10, 1, ch.dstep.toNat), (o + 11, 4, ch.credit.toNat), (o + 15, 1, ch.done.toNat)]

/-- The scalars of a stream in the order of Table S: where each begins, its bytes, its value. -/
def streamScalars (s : State) (mode : SnapMode) : List (Nat × Nat × Nat) :=
  let clk := 4 + tagged mode 6
  let sched := 32 + tagged mode 12
  let dma := 44 + tagged mode 20
  let sasi := 92 + tagged mode 25
  let rtc := 375 + 2 * s.cfg.numFdd + tagged mode 33
  let sysport := 398 + 2 * s.cfg.numFdd + tagged mode 41
  [(clk, 4, s.clk.budget.toNat), (clk + 4, 2, s.clk.line.toNat), (clk + 6, 2, s.clk.nlines.toNat),
   (clk + 8, 4, s.clk.next.toNat), (clk + 12, 4, s.clk.resid.toNat), (clk + 16, 4, s.clk.count.toNat),
   (clk + 20, 4, s.clk.carry.toNat), (clk + 24, 4, s.clk.lineused.toNat),
   (sched, 1, s.sched.seq.code.toNat), (sched + 1, 1, s.sched.mode.toNat), (sched + 2, 1, s.sched.render.toNat),
   (sched + 3, 1, s.sched.skipq.toNat), (sched + 4, 2, s.sched.keyCnt.toNat),
   (sched + 6, 2, s.sched.mouseCnt.toNat), (sched + 8, 1, s.sched.fastclrPending.toNat),
   (sched + 9, 1, s.sched.fastclrCnt.toNat)] ++
  (channelScalars dma s.dma[0] ++ channelScalars (dma + 16) s.dma[1] ++ channelScalars (dma + 32) s.dma[2]) ++
  [(sasi, 1, s.sasi.phase.code.toNat), (sasi + 1, 1, s.sasi.device.toNat), (sasi + 2, 1, s.sasi.unit.toNat),
   (sasi + 9, 1, s.sasi.cmdptr.toNat), (sasi + 10, 4, s.sasi.sector.toNat), (sasi + 14, 2, s.sasi.blocks.toNat),
   (sasi + 16, 1, s.sasi.rw.toNat), (sasi + 273, 2, s.sasi.bufptr.toNat), (sasi + 275, 1, s.sasi.stat.toNat),
   (sasi + 276, 1, s.sasi.error.toNat), (sasi + 281, 1, s.sasi.senseptr.toNat), (sasi + 282, 1, s.sasi.vptr.toNat),
   (rtc, 1, s.rtc.mode.toNat), (rtc + 1, 1, s.rtc.r15.toNat), (rtc + 15, 4, s.rtc.ta.toNat),
   (rtc + 19, 4, s.rtc.tb.toNat), (sysport, 1, s.sramWe.toNat)]

/-- Every scalar of Table S stands in the buffer at its place, most significant byte first. -/
def StreamScalars (s : State) (mode : SnapMode) (buf : List Byte) : Prop :=
  ∀ r ∈ streamScalars s mode, bufferValue buf r.1 r.2.1 = r.2.2

/-- The pending bits, packed: element `i` in bit `i mod 8` of byte `i div 8`, the unused bits zero. -/
def StreamPending (s : State) (mode : SnapMode) (buf : List Byte) : Prop :=
  bufferByte buf (43 + tagged mode 16) ≤ 1 ∧
    ∀ i : Fin 9, (bufferByte buf (42 + tagged mode 16 + i.val / 8)).testBit (i.val % 8) = s.pend.getLsbD i.val

/-- The arrays of bytes and of 4-bit registers, the drives and the two memories, element 0 first. -/
def StreamArrays (s : State) (mode : SnapMode) (buf : List Byte) : Prop :=
  (∀ j : Fin 6, bufferByte buf (95 + tagged mode 25 + j.val) = s.sasi.cmd[j.val].toNat) ∧
    (∀ j : Fin 256, bufferByte buf (109 + tagged mode 25 + j.val) = s.sasi.buf[j.val].toNat) ∧
    (∀ j : Fin 4, bufferByte buf (369 + tagged mode 25 + j.val) = s.sasi.sense[j.val].toNat) ∧
    (∀ d f, s.fdd[d]? = some f → bufferByte buf (375 + tagged mode 29 + 2 * d) = f.inserted.toNat ∧
      bufferByte buf (376 + tagged mode 29 + 2 * d) = f.reading.toNat) ∧
    (∀ j : Fin 13,
      bufferByte buf (377 + 2 * s.cfg.numFdd + tagged mode 33 + j.val) = s.rtc.b1[j.val].toNat) ∧
    (∀ j, j < 0x4000 →
      bufferByte buf (399 + 2 * s.cfg.numFdd + tagged mode 46 + j) = (Memory.read s.sram j).toNat) ∧
    ∀ j, j < s.cfg.ramSize →
      bufferByte buf (16783 + 2 * s.cfg.numFdd + tagged mode 50 + j) = (Memory.read s.ram j).toNat

end Sys2Proof.Machine
end

