-- ==== Sys2Proof/Certificates/Slice0/Obligations.lean ====
section
/-! DEFINITION. The statements for the provers. Each docstring names the rules a statement formalises; what is the
model's own choice names its log entry. -/

open Sys2Proof Sys2Proof.Machine

/-! ### Encoding -/

/-- 30_encoding R70 to R89: no operand is lost between an operation and its request, under the default map. -/
def Obligations.DecodeEncodeAgree : Prop :=
  ∀ (c : Cfg) (i : Instr), 0 < c.ramSize → c.ramSize ≤ 0xC00000 → c.map = defaultMap c.ramSize → i.wf c = true →
    decode c (encode i) = .ok i

/-- 30_encoding R71 to R89: words written out from the tables decode to their operations. -/
def Obligations.WordsDecode : Prop :=
  decode cfgT (.host 0b0011 []) = .ok .runFrame ∧
  decode cfgT (.bus [0b1_111010010110000000000001_00001000#33]) = .ok (.busWr8 0xE96001 0x08) ∧
  decode cfgT (.bus [0b0_111010010110000000000011_00000000#33]) = .ok (.busRd8 0xE96003) ∧
  decode cfgT (.port 0b1_111010001110000000001101#25 0x31) = .ok (.sysportSramweWr 0x31) ∧
  decode cfgT (.phase 0b0_0011_1#6 0) = .ok .sasiDatain ∧
  decode cfgT (.cdb6 0b00001000_00_1_00000_00000000_00000101_00000010_00000000#48) =
    .ok (.sasiCmdRead ⟨0, 1, 5, 2, 0⟩) ∧
  decode cfgT (.seq 0b010) = .ok .slice ∧
  decode cfgT (.irq (some 0b0111)) = .ok (.irqRequest 7) ∧
  decode cfgT (.evt 0b00 []) = .ok .fastclrRequest

/-- 30_encoding R86, R89, 42_interrupt R130: what each reserved code does in the decoder. A reserved source id is not
refused: in the IRQ format and as event code 3 alike it is an `IRQ.REQUEST`, and that does nothing. -/
def Obligations.ReservedCodesRefused : Prop :=
  (∀ (c : Cfg) (code : BitVec 4) (args : List Arg), 0xD ≤ code.toNat →
    decode c (.host code args) = .error .reservedHostCode) ∧
  (∀ (c : Cfg) (code : BitVec 3), 5 ≤ code.toNat → decode c (.seq code) = .error .reservedSeqCode) ∧
  (∀ (c : Cfg) (rw : Bool) (code : BitVec 4) (d : Bool) (v : Byte),
    (6 ≤ code.toNat ∧ code.toNat ≤ 8) ∨ 11 ≤ code.toNat →
    decode c (.phase (BitVec.ofBool rw ++ code ++ BitVec.ofBool d) v) = .error .reservedPhaseCode) ∧
  (∀ (c : Cfg) (id : BitVec 4), 9 ≤ id.toNat →
    decode c (.irq (some id)) = .ok (.irqRequest id) ∧ decode c (.evt 3 [.nat id.toNat]) = .ok (.irqRequest id) ∧
    ∀ s : State, s.alive = true → exec (.irqRequest id) s = .next { s with result := .none })

/-- 20_memory R47: every address lies in exactly one region of the default map. -/
def Obligations.DefaultMapCovers : Prop :=
  ∀ (ramSize : Nat) (a : Addr), 0 < ramSize → ramSize ≤ 0xC00000 →
    (defaultMap ramSize).countP (fun r => decide (r.lo ≤ a.toNat ∧ a.toNat ≤ r.hi)) = 1

/-! ### The step -/

/-- 00_scope R8: the first operation asked for is decoded and performed, and leaves the queue (log 1). -/
def Obligations.StepRunsTheDecodedOperation : Prop :=
  ∀ (s : State) (r : Request) (rest : List Request) (i : Instr),
    (s.alive = true → s.sched.seq = .idle) → s.queue = r :: rest → decode s.cfg r = .ok i →
    step s = exec i { s with queue := rest }

/-- 10_state R12, 41_scheduler R100, 60_exceptions R257: while a frame is in progress the step is the micro-step
`sched.seq` names and nothing asked for is taken; between frames, with nothing asked for, nothing happens. -/
def Obligations.StepRunsTheFrame : Prop :=
  ∀ s : State,
    (s.alive = true →
      (s.sched.seq = .lineStart → step s = exec .lineStart s) ∧
      (s.sched.seq = .slice → step s = exec .slice s) ∧
      (s.sched.seq = .lineEnd → step s = exec .lineEnd s) ∧
      (s.sched.seq = .frameEnd → step s = exec .frameEnd s)) ∧
    (s.sched.seq = .idle → s.queue = [] → step s = .next s)

/-- The invariant holds at reset, and the scanline index is 0 there (70_reset R270). -/
def Obligations.ResetMeetsInvariant : Prop := State.reset.Inv ∧ State.reset.LineInv

/-- 10_state R17, R19, R20, 20_memory R48, 43_dma R148: every step keeps the invariant of Safety. -/
def Obligations.StepKeepsInvariant : Prop :=
  ∀ s t : State, s.Inv → step s = .next t → t.Inv

/-- 10_state R11: what the host may ask for, and the micro-steps of a frame, keep the scanline index below the
scanline count during a frame and 0 between frames. -/
def Obligations.ScanlineIndexBounded : Prop :=
  ∀ (i : Instr) (s t : State), s.Inv → s.LineInv → drivesFrame i s = true → exec i s = .next t → t.LineInv

/-- 60_exceptions R240, 70_reset R290: under the conditions Runnable lists, every operation completes. What happens
outside them is the model's choice (log 11, log 13, log 16). -/
def Obligations.EveryOperationCompletes : Prop :=
  ∀ (i : Instr) (s : State), Runnable i s = true → ∃ t, exec i s = .next t

/-- 70_reset R271, R280, R273: where there is no context every operation but `POWER_ON`, and in the middle of a frame
every operation of the host, `POWER_ON` among them, is refused by name. That it is refused is the model's choice
(log 11): the spec leaves these uses undefined. -/
def Obligations.OutsideTheDomainRefused : Prop :=
  ∀ (i : Instr) (s : State),
    ((∀ c r m, i ≠ .powerOn c r m) → s.alive = false → exec i s = .refused .noContext) ∧
    (s.alive = true → s.sched.seq ≠ .idle →
      ((∃ c r m, i = .powerOn c r m) ∨ i = .shutdown ∨ i = .reset ∨ i = .runFrame ∨
        (∃ m, i = .save m) ∨ (∃ m b, i = .load m b) ∨
        (∃ a, i = .hostBusRd a) ∨ (∃ a v, i = .hostBusWr a v) ∨ (∃ d h, i = .fddInsert d h) ∨
        (∃ d, i = .fddEject d) ∨ (∃ d, i = .fddGetImage d) ∨ (∃ d h, i = .fddSetImage d h) ∨
        (∃ d, i = .fddIsReading d)) →
      exec i s = .refused .frameInProgress)

/-! ### Power-on, reset, shutdown -/

/-- 70_reset R270, R271, 60_exceptions R242: `POWER_ON` leaves every row of Table S at its reset value and the
memories as passed; a missing or short ROM is ConfigurationError and there is no context. That a context which
exists already is replaced, or lost with the error, that it does the same after a `SHUTDOWN` or a failed `POWER_ON`,
and that any other ill-formed Cfg is refused by this name, are the model's choice (log 11). -/
def Obligations.PowerOnResetsEverything : Prop :=
  ∀ (c : Cfg) (ramInit sramInit : Memory) (s : State), (s.alive = true → s.sched.seq = .idle) →
    ((∀ i, c.bootRom = some i → i.len ≠ 0x20000) →
      exec (.powerOn c ramInit sramInit) s =
        .next { s with alive := false, result := .configurationError .boot }) ∧
    ((∃ i, c.bootRom = some i ∧ i.len = 0x20000) → (∀ i, c.cgRom = some i → i.len ≠ 0xC0000) →
      exec (.powerOn c ramInit sramInit) s =
        .next { s with alive := false, result := .configurationError .cg }) ∧
    (c.wf = true →
      exec (.powerOn c ramInit sramInit) s =
        .next { s with
          clk := { budget := 0, line := 0, nlines := 0, next := 0, resid := 0, count := 0, carry := 0, lineused := 0 }
          sched := { seq := .idle, mode := 0, render := true, skipq := 0, keyCnt := 0, mouseCnt := 0
                     fastclrPending := false, fastclrCnt := 0 }
          pend := 0
          dma := Vector.replicate 3
            { src := 0, dst := 0, count := 0, active := false, sstep := 0, dstep := 0, credit := 0, done := false }
          sasi := { phase := .busFree, device := 0x7F, unit := 0, cmd := Vector.replicate 6 0, cmdptr := 0
                    sector := 0, blocks := 0, rw := false, buf := Vector.replicate 256 0, bufptr := 0, stat := 0
                    error := 0, sense := Vector.replicate 4 0, senseptr := 0, vptr := 0 }
          fdd := List.replicate c.numFdd { inserted := false, reading := false, image := none }
          rtc := { mode := 0, r15 := 0xC, b1 := Vector.replicate 13 0, ta := 0, tb := 0 }
          sramWe := false, sram := sramInit, ram := ramInit, cfg := c, alive := true
          calls := .cpuReset :: s.calls, result := .ok }) ∧
    (c.bootRomOk = true → c.cgRomOk = true → c.paramsWf = false →
      exec (.powerOn c ramInit sramInit) s = .refused .cfgIllFormed)

/-- 70_reset R272, R273: what `RESET` clears and what it keeps; `SHUTDOWN` ends the context and changes nothing else. -/
def Obligations.ResetAndShutdown : Prop :=
  ∀ s : State, s.hostReady = true →
    exec .reset s =
      .next { s with
        clk := Clock.reset, sched := Sched.reset, pend := 0, dma := Vector.replicate 3 DmaChannel.reset
        sasi := Sasi.reset, fdd := s.fdd.map fun f => { f with reading := false }
        rtc := { s.rtc with ta := 0, tb := 0 }, sramWe := false, calls := .cpuReset :: s.calls, result := .none } ∧
    exec .shutdown s = .next { s with alive := false, result := .none }

/-! ### The frame -/

/-- 41_scheduler R100, R102, R120, R123, R124, R125, 70_reset R290: `RUN_FRAME` is `FRAME_START` and then the
micro-steps that `sched.seq` names, one after the other, until IDLE, to which it always comes back; the cycles it
passed are the frame's budget but for the carry, which stays within `OVERRUN_MAX`. -/
def Obligations.RunFrameCompletes : Prop :=
  ∀ (s : State) (m : VideoMode), s.hostReady = true → s.cfg.wf = true → s.cfg.noOverflow = true →
    s.cfg.videoMode? s.nextVideoMode = some m →
    ∃ (n : Nat) (f : Nat → State) (t : State), exec .frameStart s = .next (f 0) ∧
      (∀ j, j < n → (f j).sched.seq ≠ .idle ∧
        ((f j).sched.seq = .lineStart → exec .lineStart (f j) = .next (f (j + 1))) ∧
        ((f j).sched.seq = .slice → exec .slice (f j) = .next (f (j + 1))) ∧
        ((f j).sched.seq = .lineEnd → exec .lineEnd (f j) = .next (f (j + 1))) ∧
        ((f j).sched.seq = .frameEnd → exec .frameEnd (f j) = .next (f (j + 1)))) ∧
      t = f n ∧ exec .runFrame s = .next t ∧ t.sched.seq = .idle ∧ t.clk.line = 0 ∧
      t.sched.mode = s.nextVideoMode ∧ t.clk.nlines.toNat = m.lines ∧
      t.clk.budget.toNat = m.frameBaseCycles * s.cfg.clockMult / 10 ∧
      t.clk.budget.toNat ≤ t.clk.count.toNat ∧
      t.clk.carry.toNat = t.clk.count.toNat - t.clk.budget.toNat ∧
      (s.clk.carry.toNat ≤ s.cfg.overrunMax → t.clk.carry.toNat ≤ s.cfg.overrunMax) ∧
      t.cfg = s.cfg ∧ t.alive = true ∧ t.queue = s.queue ∧ t.result = .none

/-- 41_scheduler R101, R102: what `FRAME_START` sets, and that it sets nothing else. -/
def Obligations.FrameStartSetsTheFrame : Prop :=
  ∀ (s : State) (m : VideoMode), s.alive = true → s.cfg.wf = true → s.cfg.noOverflow = true →
    s.cfg.videoMode? s.nextVideoMode = some m →
    ∃ t, exec .frameStart s = .next t ∧
      t = { s.drewVideoMode with
        clk := t.clk, sched := t.sched, fdd := s.fdd.map fun f => { f with reading := false }, result := .none } ∧
      t.clk.nlines.toNat = m.lines ∧ t.clk.budget.toNat = m.frameBaseCycles * s.cfg.clockMult / 10 ∧
      t.clk.line = 0 ∧ t.clk.count = s.clk.carry ∧ t.clk.next.toNat = t.clk.budget.toNat / m.lines ∧
      t.clk.resid = s.clk.resid ∧ t.clk.carry = s.clk.carry ∧ t.clk.lineused = s.clk.lineused ∧
      t.sched = { s.sched with
        mode := s.nextVideoMode, seq := .lineStart, skipq := BitVec.ofNat 8 (s.sched.skipq.toNat - 1)
        render := decide (s.sched.skipq = 0) }

/-- 41_scheduler R104 to R107: the three conditions of a scanline start, each with its own pending bit. -/
def Obligations.LineStartRequests : Prop :=
  ∀ (s : State) (m : VideoMode), s.alive = true → s.cfg.videoMode? s.sched.mode = some m →
    ∃ t, exec .lineStart s = .next t ∧
      t = { s.drewRasterLine with
        clk := { s.clk with lineused := 0 }
        sched := { s.sched with seq := if s.clk.count.toNat < s.clk.next.toNat then .slice else .lineEnd }
        pend := t.pend, result := .none } ∧
      ∀ src, pending t.pend src = (pending s.pend src ||
        (src == .vblankStart && s.clk.line.toNat == m.vdispEnd) ||
        (src == .vblankEnd && s.clk.line.toNat == m.vdispStart) ||
        (src == .raster && s.clk.line == s.nextRasterLine))

/-- 41_scheduler R108 to R113: one slice: one resolution point, one `execute`, the backend's operations one by one, the
accounting of the cycles it passes, the channels 0, 1, 2, the timers, what comes next; and what a slice leaves alone.
The base cycles handed out fit 32 bits, as 10_state R32 has it (log 15); that the backend's cycles are brought into
their range by a clamp is log 3. -/
def Obligations.SliceAccounts : Prop :=
  (∀ (s : State) (req consumed : Nat) (used : BitVec 32), s.alive = true → s.cfg.wf = true →
    s.clk.count.toNat < s.clk.next.toNat →
    req = min s.cfg.quantum (s.clk.next.toNat - s.clk.count.toNat) →
    consumed = max 1 (min s.nextBackend.consumed (req + s.cfg.overrunMax)) →
    used.toNat = (s.clk.resid.toNat + consumed * 10) / s.cfg.clockMult →
    ∃ (irq : Option (Src × Byte)) (u b w0 w1 w2 w3 t : State) (later : List Call),
      exec .irqResolve s = .next u ∧ u.result = .vector irq ∧
      b = s.nextBackend.ops.foldl State.backendOp (u.drewBackend.call (.cpuExecute req irq)) ∧
      exec (.dmaStep 0 used) { b with
        clk := { s.clk with
          count := BitVec.ofNat 32 (s.clk.count.toNat + consumed)
          resid := BitVec.ofNat 32 ((s.clk.resid.toNat + consumed * 10) % s.cfg.clockMult)
          lineused := BitVec.ofNat 32 (s.clk.lineused.toNat + used.toNat) } } = .next w0 ∧
      exec (.dmaStep 1 used) w0 = .next w1 ∧ exec (.dmaStep 2 used) w1 = .next w2 ∧
      exec (.timersTick used) w2 = .next w3 ∧
      t = { w3 with
        sched := { w3.sched with seq := if w3.clk.count.toNat < w3.clk.next.toNat then .slice else .lineEnd } } ∧
      exec .slice s = .next t ∧
      t.calls = later ++ .cpuExecute req irq :: s.calls ∧ (∀ c ∈ later, ∀ n i, c ≠ .cpuExecute n i) ∧
      1 ≤ consumed ∧ consumed ≤ req + s.cfg.overrunMax ∧
      t.clk = { s.clk with
        count := BitVec.ofNat 32 (s.clk.count.toNat + consumed)
        resid := BitVec.ofNat 32 ((s.clk.resid.toNat + consumed * 10) % s.cfg.clockMult)
        lineused := BitVec.ofNat 32 (s.clk.lineused.toNat + used.toNat) } ∧
      t.emitted = .extTick used.toNat :: s.emitted ∧
      t.sched = { s.sched with fastclrPending := t.sched.fastclrPending, seq := t.sched.seq } ∧
      t.cfg = s.cfg ∧ t.alive = s.alive ∧ t.queue = s.queue ∧ t.fdd.length = s.fdd.length ∧ t.result = .none) ∧
  ∀ (s : State) (a src dst : Addr) (v : Byte) (w : BitVec 16) (l : BitVec 32) (c ss ds : BitVec 2) (n : BitVec 16),
    s.alive = true →
    (∃ t b, exec (.busRd8 a) s = .next t ∧ t.result = .byte b ∧
      s.backendOp (.rd8 a) = { t with calls := .answer8 b :: t.calls, result := s.result }) ∧
    (∃ t b, exec (.busRd16 a) s = .next t ∧ t.result = .half b ∧
      s.backendOp (.rd16 a) = { t with calls := .answer16 b :: t.calls, result := s.result }) ∧
    (∃ t b, exec (.busRd32 a) s = .next t ∧ t.result = .word b ∧
      s.backendOp (.rd32 a) = { t with calls := .answer32 b :: t.calls, result := s.result }) ∧
    exec (.busWr8 a v) s = .next { s.backendOp (.wr8 a v) with result := .none } ∧
    exec (.busWr16 a w) s = .next { s.backendOp (.wr16 a w) with result := .none } ∧
    exec (.busWr32 a l) s = .next { s.backendOp (.wr32 a l) with result := .none } ∧
    exec (.dmaStart c src dst n ss ds) s =
      .next { s.backendOp (.dmaStart c src dst n ss ds) with result := .none }

/-- 41_scheduler R114 to R119: the end of a scanline. -/
def Obligations.LineEndActions : Prop :=
  ∀ s : State, s.alive = true → s.sched.keyCnt ≠ 0xFFFF → s.sched.mouseCnt ≠ 0xFFFF →
    ∃ t, exec .lineEnd s = .next t ∧
      t = { s with
        clk := if s.clk.line.toNat + 1 < s.clk.nlines.toNat then
            { s.clk with
              line := s.clk.line + 1
              next := BitVec.ofNat 32 (s.clk.budget.toNat * (s.clk.line.toNat + 2) / s.clk.nlines.toNat) }
          else s.clk
        sched := { s.sched with
          keyCnt := if max 1 (s.clk.nlines.toNat / s.cfg.keyDiv) ≤ s.sched.keyCnt.toNat + 1 then 0
            else s.sched.keyCnt + 1
          mouseCnt := if max 1 (s.clk.nlines.toNat / s.cfg.mouseDiv) ≤ s.sched.mouseCnt.toNat + 1 then 0
            else s.sched.mouseCnt + 1
          seq := if s.clk.line.toNat + 1 < s.clk.nlines.toNat then .lineStart else .frameEnd }
        pend := t.pend
        emitted := .audioAdvance s.clk.lineused ::
          (if s.sched.render then .scanline s.clk.line :: s.emitted else s.emitted)
        result := .none } ∧
      ∀ src, pending t.pend src = (pending s.pend src ||
        (src == .key && decide (max 1 (s.clk.nlines.toNat / s.cfg.keyDiv) ≤ s.sched.keyCnt.toNat + 1)) ||
        (src == .mouse && decide (max 1 (s.clk.nlines.toNat / s.cfg.mouseDiv) ≤ s.sched.mouseCnt.toNat + 1)))

/-- 41_scheduler R120, R123: the end of a frame is the fast-clear resolution, the carry, the hand-off and the
frame-skip decision, and IDLE. -/
def Obligations.FrameEndCloses : Prop :=
  ∀ (s : State) (m : VideoMode), s.alive = true → s.cfg.videoMode? s.sched.mode = some m →
    s.clk.budget.toNat ≤ s.clk.count.toNat →
    ∃ u v, exec .fastclrResolve s = .next u ∧ exec (.frameskipAdapt s.nextElapsedMs) s = .next v ∧
      exec .frameEnd s =
        .next { s.drewElapsedMs with
          clk := { s.clk with carry := s.clk.count - s.clk.budget, line := 0 }
          sched := { s.sched with
            fastclrPending := u.sched.fastclrPending, fastclrCnt := u.sched.fastclrCnt
            skipq := v.sched.skipq, seq := .idle }
          emitted := .frameDone s.sched.render :: u.emitted
          calls := v.calls, result := .none }

/-- 41_scheduler R121, R127: a fast-clear request is executed once, at the first frame end, which starts the countdown
of the mode's `FASTCLR_FRAMES`; every later frame end, whatever has happened since, takes one off and clears the request
when it comes to 0. Resolutions one after the other are so `FASTCLR_FRAMES` + 1 with one execution. -/
def Obligations.FastClearCountsDown : Prop :=
  ∀ s : State, s.alive = true →
    exec .fastclrRequest s =
      .next { s with sched := { s.sched with fastclrPending := true }, result := .none } ∧
    (s.sched.fastclrPending = false → exec .fastclrResolve s = .next { s with result := .none }) ∧
    (s.sched.fastclrPending = true → s.sched.fastclrCnt ≠ 0 →
      exec .fastclrResolve s =
        .next { s with
          sched := { s.sched with fastclrCnt := s.sched.fastclrCnt - 1, fastclrPending := s.sched.fastclrCnt != 1 }
          result := .none }) ∧
    (∀ m : VideoMode, s.sched.fastclrPending = true → s.sched.fastclrCnt = 0 →
      s.cfg.videoMode? s.sched.mode = some m →
      exec .fastclrResolve s =
        .next { s with
          sched := { s.sched with fastclrCnt := BitVec.ofNat 2 m.fastclrFrames }
          emitted := .fastclrExecute :: s.emitted, result := .none }) ∧
    (∀ m : VideoMode, s.cfg.wf = true → s.cfg.videoMode? s.sched.mode = some m →
      s.sched.fastclrPending = true → s.sched.fastclrCnt = 0 →
      ∃ f : Nat → State, f 0 = s ∧
        (∀ k, k ≤ m.fastclrFrames →
          (f k).sched.fastclrPending = true ∧ exec .fastclrResolve (f k) = .next (f (k + 1))) ∧
        (∀ k, 1 ≤ k → k ≤ m.fastclrFrames + 1 →
          (f k).sched.fastclrCnt.toNat = m.fastclrFrames + 1 - k ∧ (f k).emitted = .fastclrExecute :: s.emitted) ∧
        f (m.fastclrFrames + 1) = { s with
          sched := { s.sched with fastclrPending := false, fastclrCnt := 0 }
          emitted := .fastclrExecute :: s.emitted, result := .none })

/-- 41_scheduler R122: the frame-skip counter after a frame that took too long, and after one that did not. -/
def Obligations.FrameskipAdapts : Prop :=
  ∀ (s : State) (m : VideoMode) (ms : BitVec 32), s.alive = true → s.cfg.wf = true →
    s.cfg.videoMode? s.sched.mode = some m →
    ∃ t, exec (.frameskipAdapt ms) s = .next t ∧
      t = { s with
        sched := { s.sched with skipq := t.sched.skipq }
        calls := .pacing ms m.idealMs :: s.calls, result := .none } ∧
      (m.idealMs < ms.toNat →
        t.sched.skipq.toNat = min s.cfg.frameskipMax (s.sched.skipq.toNat + ms.toNat / m.idealMs)) ∧
      (ms.toNat ≤ m.idealMs → t.sched.skipq = s.sched.skipq)

/-- 41_scheduler R103: the thresholds end at the budget and their distances differ by at most one. -/
def Obligations.ThresholdsEven : Prop :=
  ∀ k : Clock, 0 < k.nlines.toNat →
    (∀ line, k.threshold line = k.budget.toNat * (line + 1) / k.nlines.toNat) ∧
    k.threshold (k.nlines.toNat - 1) = k.budget.toNat ∧
    ∀ line, k.threshold (line + 1) = k.threshold line + k.budget.toNat / k.nlines.toNat ∨
      k.threshold (line + 1) = k.threshold line + k.budget.toNat / k.nlines.toNat + 1

/-- 41_scheduler R112: over any run of slices the base cycles handed out are exact, and the residual stays below
`CLOCK_MULT`. -/
def Obligations.ResidualLosesNothing : Prop :=
  ∀ (run : List Nat) (s : State), 0 < s.cfg.clockMult → s.cfg.clockMult < 2 ^ 32 →
    s.clk.resid.toNat < s.cfg.clockMult →
    s.clk.lineused.toNat + (s.clk.resid.toNat + 10 * run.sum) / s.cfg.clockMult < 2 ^ 32 →
    (run.foldl State.account s).clk.resid.toNat < s.cfg.clockMult ∧
    (run.foldl State.account s).clk.lineused.toNat = s.clk.lineused.toNat +
      (s.clk.resid.toNat + 10 * run.sum - (run.foldl State.account s).clk.resid.toNat) / s.cfg.clockMult ∧
    (run.foldl State.account s).clk.resid.toNat = (s.clk.resid.toNat + 10 * run.sum) % s.cfg.clockMult

/-! ### Interrupts -/

/-- 42_interrupt R130, R131: a request sets its own bit and nothing else, once however often it is made; a reserved id
does nothing. -/
def Obligations.IrqRequestLatches : Prop :=
  ∀ (s : State) (id : BitVec 4), s.alive = true →
    (id.toNat ≤ 8 →
      exec (.irqRequest id) s = .next { s with pend := s.pend ||| (1#9 <<< id.toNat), result := .none } ∧
      exec (.irqRequest id) { s with pend := s.pend ||| (1#9 <<< id.toNat), result := .none } =
        .next { s with pend := s.pend ||| (1#9 <<< id.toNat), result := .none }) ∧
    (9 ≤ id.toNat → exec (.irqRequest id) s = .next { s with result := .none })

/-- 42_interrupt R132, R133, R135, 60_exceptions R249: the pending source of the smallest rank is delivered with its
vector and only its bit is cleared; with nothing pending nothing changes. -/
def Obligations.IrqResolveDelivers : Prop :=
  ∀ s : State, s.alive = true → prioWf s.cfg.prio = true →
    (s.pend = 0 → exec .irqResolve s = .next { s with result := .vector none }) ∧
    (s.pend ≠ 0 →
      ∃ (src : Src) (p : BitVec 9), pending s.pend src = true ∧
        (∀ o, pending s.pend o = true → o ≠ src → s.cfg.prio[src.id.val] < s.cfg.prio[o.id.val]) ∧
        (∀ o, pending p o = (pending s.pend o && o != src)) ∧
        exec .irqResolve s = .next { s with pend := p, result := .vector (some (src, s.vector src)) })

/-- 42_interrupt R138: a storage completion passes a timer request, which stays pending. -/
def Obligations.StorageBeforeTimer : Prop :=
  ∀ s : State, s.alive = true → prioWf s.cfg.prio = true → pending s.pend .mfpTimer = true →
    (pending s.pend .sasi = true ∨ pending s.pend .fdc = true) →
    ∃ (src : Src) (v : Byte) (t : State), exec .irqResolve s = .next t ∧ (src = .sasi ∨ src = .fdc) ∧
      t.result = .vector (some (src, v)) ∧ pending t.pend src = false ∧ pending t.pend .mfpTimer = true

/-! ### DMA -/

/-- 43_dma R140, R143: an accepted trigger arms the channel; a busy channel, a zero count and channel 3 ignore it;
completion clears `active`, sets `done` and tells the owner, and nothing else of the channel changes. -/
def Obligations.DmaStartAndComplete : Prop :=
  ∀ (s : State) (src dst : Addr) (count : BitVec 16) (ss ds : BitVec 2), s.alive = true →
    exec (.dmaStart 3 src dst count ss ds) s = .next { s with result := .none } ∧
    ∀ c : Fin 3,
      ((s.dma[c.val].active = true ∨ count = 0) →
        exec (.dmaStart (BitVec.ofNat 2 c.val) src dst count ss ds) s = .next { s with result := .none }) ∧
      (s.dma[c.val].active = false → count ≠ 0 →
        exec (.dmaStart (BitVec.ofNat 2 c.val) src dst count ss ds) s =
          .next { s with
            dma := s.dma.set c.val
              { src := src, dst := dst, count := count, active := true, sstep := ss, dstep := ds, credit := 0
                done := false } c.isLt
            result := .none }) ∧
      exec (.dmaComplete (BitVec.ofNat 2 c.val)) s =
        .next { s with
          dma := s.dma.set c.val { s.dma[c.val] with active := false, done := true } c.isLt
          calls := .dmaDone c :: s.calls, result := .none }

/-- 43_dma R142, 20_memory R61: one byte is one bus read and one bus write, then the pointers step, the count falls by
one, and at 0 the transfer completes. With no bytes to go, which is an idle channel, the new count is any number (the
model's choice, log 26, log 29). -/
def Obligations.DmaXferMovesOneByte : Prop :=
  ∀ (s : State) (c : Fin 3), s.alive = true →
    ∃ (u w : State) (b : Byte) (n : BitVec 16), exec (.busRd8 s.dma[c.val].src) s = .next u ∧ u.result = .byte b ∧
      exec (.busWr8 u.dma[c.val].dst b) u = .next w ∧
      (w.dma[c.val].count ≠ 0 → n = w.dma[c.val].count - 1) ∧
      exec (.dmaXfer (BitVec.ofNat 2 c.val)) s =
        .next { w with
          dma := w.dma.set c.val
            { w.dma[c.val] with
              src := if w.dma[c.val].sstep = 1 then w.dma[c.val].src + 1
                else if w.dma[c.val].sstep = 2 then w.dma[c.val].src - 1 else w.dma[c.val].src
              dst := if w.dma[c.val].dstep = 1 then w.dma[c.val].dst + 1
                else if w.dma[c.val].dstep = 2 then w.dma[c.val].dst - 1 else w.dma[c.val].dst
              count := n
              active := w.dma[c.val].active && n != 0
              done := w.dma[c.val].done || n == 0 } c.isLt
          calls := if n = 0 then .dmaDone c :: w.calls else w.calls
          result := .none }

/-- 43_dma R141, R145, R146, R148: a channel's turn. An inactive channel, and one whose owner is not ready, moves nothing
and loses its credit; a ready one is granted the cycles of the slice and makes transfers as long as it is active, its
owner ready, and the credit pays for a byte; after the turn its credit is below the cost of a byte, and zero where the
channel is inactive. That the line of an FDC or EXT owner is one draw for the whole turn is DEDUCED (log 8). On channel 3,
which does not exist, the inner operations do nothing (93 U20, log 26). -/
def Obligations.DmaStepSettlesCredit : Prop :=
  ∀ (s g : State) (c : Fin 3) (used : BitVec 32), s.alive = true →
    (1 ≤ s.cfg.dmaCost[c.val] →
      ∃ t, exec (.dmaStep (BitVec.ofNat 2 c.val) used) s = .next t ∧
        t.dma[c.val].credit.toNat < s.cfg.dmaCost[c.val] ∧
        (t.dma[c.val].active = false → t.dma[c.val].credit = 0)) ∧
    ((s.dma[c.val].active = false ∨ (s.cfg.dmaOwner[c.val] = .sasi ∧ s.sasi.phase ≠ .data)) →
      exec (.dmaStep (BitVec.ofNat 2 c.val) used) s =
        .next { s with dma := s.dma.set c.val { s.dma[c.val] with credit := 0 } c.isLt, result := .none }) ∧
    (s.dma[c.val].active = true → s.cfg.dmaOwner[c.val] ≠ .sasi → s.nextReady = false →
      exec (.dmaStep (BitVec.ofNat 2 c.val) used) s =
        .next { s.drewReady with
          dma := s.dma.set c.val { s.dma[c.val] with credit := 0 } c.isLt, result := .none }) ∧
    (s.dma[c.val].active = true →
      (s.cfg.dmaOwner[c.val] = .sasi ∧ s.sasi.phase = .data ∧ g = s ∨
        s.cfg.dmaOwner[c.val] ≠ .sasi ∧ s.nextReady = true ∧ g = s.drewReady) →
      ∃ (n : Nat) (f : Nat → State) (t : State),
        exec (.dmaStep (BitVec.ofNat 2 c.val) used) s = .next t ∧
        f 0 = { g with
          dma := s.dma.set c.val { s.dma[c.val] with credit := s.dma[c.val].credit + used } c.isLt } ∧
        (∀ j, j < n → (f j).dma[c.val].active = true ∧
          (s.cfg.dmaOwner[c.val] = .sasi → (f j).sasi.phase = .data) ∧
          s.cfg.dmaCost[c.val] ≤ (f j).dma[c.val].credit.toNat ∧
          exec (.dmaXfer (BitVec.ofNat 2 c.val)) { f j with
            dma := (f j).dma.set c.val { (f j).dma[c.val] with
              credit := (f j).dma[c.val].credit - BitVec.ofNat 32 s.cfg.dmaCost[c.val] } c.isLt } =
            .next (f (j + 1))) ∧
        ((f n).dma[c.val].active = false ∨ (s.cfg.dmaOwner[c.val] = .sasi ∧ (f n).sasi.phase ≠ .data) ∨
          (f n).dma[c.val].credit.toNat < s.cfg.dmaCost[c.val]) ∧
        t = { f n with
          dma := if (f n).dma[c.val].active = true ∧ (s.cfg.dmaOwner[c.val] = .sasi → (f n).sasi.phase = .data) then
              (f n).dma
            else (f n).dma.set c.val { (f n).dma[c.val] with credit := 0 } c.isLt
          result := .none }) ∧
    exec (.dmaStep 3 used) s = .next { s with result := .none } ∧
    exec (.dmaXfer 3) s = .next { s with result := .none } ∧
    exec (.dmaComplete 3) s = .next { s with result := .none }

/-- 43_dma R141, R142, R148: a channel that is ready throughout its turn moves as many bytes as its credit pays for, no
more than its count, whatever its two ends are, steps both pointers by each, and keeps the rest of the credit. An FDC
or EXT owner is ready throughout where its one draw is (DEDUCED, log 8), the SASI controller where it is in the Data
phase before and after. -/
def Obligations.DmaStepRate : Prop :=
  ∀ (s : State) (c : Fin 3) (used : BitVec 32) (k : Nat), s.alive = true → 1 ≤ s.cfg.dmaCost[c.val] →
    s.dma[c.val].active = true → s.dma[c.val].count ≠ 0 →
    s.dma[c.val].credit.toNat + used.toNat < 2 ^ 32 →
    k = min s.dma[c.val].count.toNat ((s.dma[c.val].credit.toNat + used.toNat) / s.cfg.dmaCost[c.val]) →
    ∃ t, exec (.dmaStep (BitVec.ofNat 2 c.val) used) s = .next t ∧
      ((s.cfg.dmaOwner[c.val] ≠ .sasi ∧ s.nextReady = true ∨
          s.cfg.dmaOwner[c.val] = .sasi ∧ s.sasi.phase = .data ∧ t.sasi.phase = .data) →
        t.dma[c.val] = { s.dma[c.val] with
          src := if s.dma[c.val].sstep = 1 then s.dma[c.val].src + BitVec.ofNat 24 k
            else if s.dma[c.val].sstep = 2 then s.dma[c.val].src - BitVec.ofNat 24 k else s.dma[c.val].src
          dst := if s.dma[c.val].dstep = 1 then s.dma[c.val].dst + BitVec.ofNat 24 k
            else if s.dma[c.val].dstep = 2 then s.dma[c.val].dst - BitVec.ofNat 24 k else s.dma[c.val].dst
          count := s.dma[c.val].count - BitVec.ofNat 16 k
          active := decide (k < s.dma[c.val].count.toNat)
          done := s.dma[c.val].done || decide (k = s.dma[c.val].count.toNat)
          credit := if k < s.dma[c.val].count.toNat then
              s.dma[c.val].credit + used - BitVec.ofNat 32 (k * s.cfg.dmaCost[c.val]) else 0 })

/-! ### The SASI controller -/

/-- 44_sasi R161, R162, R163: selection, select-acknowledge and the reset port. -/
def Obligations.SasiHandshakePorts : Prop :=
  ∀ (s : State) (v : Byte), s.alive = true →
    (∀ d : Fin 8, s.sasi.phase = .busFree → v.getLsbD d = true → (∀ j, j < d.val → v.getLsbD j = false) →
      ((s.cfg.hd[2 * d.val]?).join.isSome ∨ (s.cfg.hd[2 * d.val + 1]?).join.isSome →
        exec (.sasiSelectWr v) s =
          .next { s with
            sasi := { s.sasi with device := BitVec.ofNat 7 d.val, phase := .selection }, result := .none }) ∧
      ((s.cfg.hd[2 * d.val]?).join = none → (s.cfg.hd[2 * d.val + 1]?).join = none →
        exec (.sasiSelectWr v) s = .next { s with result := .none })) ∧
    (s.sasi.phase ≠ .busFree ∨ v = 0 → exec (.sasiSelectWr v) s = .next { s with result := .none }) ∧
    (s.sasi.phase = .selection →
      exec (.sasiAckselWr v) s =
        .next { s with sasi := { s.sasi with phase := .command, cmdptr := 0 }, result := .none }) ∧
    (s.sasi.phase ≠ .selection → exec (.sasiAckselWr v) s = .next { s with result := .none }) ∧
    exec (.sasiResetWr v) s = .next { s with sasi := Sasi.reset, result := .none }

/-- 44_sasi R164, 30_encoding R78: the status port by phase. -/
def Obligations.SasiStatusByte : Prop :=
  ∀ s : State, s.alive = true →
    exec .sasiStatusRd s =
      .next { s with result := .byte (match s.sasi.phase with
        | .busFree => 0x00 | .selection => 0x02 | .command => 0x0B | .data => if s.sasi.rw then 0x07 else 0x03
        | .status => 0x0F | .message => 0x1F | .senseStatus => 0x07 | .vendorInit => 0x03) }

/-- 44_sasi R165: the first five command bytes only fill the buffer, the sixth runs the command. -/
def Obligations.SasiCommandBytes : Prop :=
  ∀ (s : State) (v : Byte), s.alive = true →
    (∀ k : Fin 5, s.sasi.cmdptr.toNat = k.val →
      exec (.sasiCmdbyte v) s =
        .next { s with
          sasi := { s.sasi with cmd := s.sasi.cmd.set k.val v, cmdptr := s.sasi.cmdptr + 1 }, result := .none }) ∧
    (s.sasi.cmdptr = 5 →
      exec (.sasiCmdbyte v) s =
        exec .sasiExecute { s with sasi := { s.sasi with cmd := s.sasi.cmd.set 5 v, cmdptr := 0 } })

/-- 44_sasi R167, R168, R170, R173, R175: the commands without a Data phase. An operation run by itself first takes its
block into the command buffer and latches the unit, which is the model's choice (log 7). -/
def Obligations.SasiShortCommands : Prop :=
  ∀ (s : State) (b : Cdb) (op : Byte) (d : Byte → Sasi), s.alive = true →
    (∀ o, d o = { s.sasi with cmd := cmdOfBlock (b.block o), unit := b.unit, phase := .status }) →
    exec (.sasiCmdFormat b) s =
      .next { s with sasi := { d 0x04 with stat := 0x00 }, pend := s.pend ||| 1#9, result := .none } ∧
    exec (.sasiCmdUnsupported op b) s =
      .next { s with
        sasi := { d op with stat := 0x02, error := s.cfg.sasiErrInvalid }, pend := s.pend ||| 1#9
        result := .none } ∧
    ((s.cfg.hd[2 * s.sasi.device.toNat + b.unit.toNat]?).join.isSome = true →
      exec (.sasiCmdTestReady b) s =
        .next { s with sasi := { d 0x00 with stat := 0x00 }, pend := s.pend ||| 1#9, result := .none } ∧
      exec (.sasiCmdRecalibrate b) s =
        .next { s with
          sasi := { d 0x01 with stat := 0x00, sector := 0 }, pend := s.pend ||| 1#9, result := .none } ∧
      exec (.sasiCmdSeek b) s =
        .next { s with sasi := { d 0x0B with stat := 0x00 }, pend := s.pend ||| 1#9, result := .none }) ∧
    ((s.cfg.hd[2 * s.sasi.device.toNat + b.unit.toNat]?).join = none →
      exec (.sasiCmdTestReady b) s =
        .next { s with
          sasi := { d 0x00 with stat := 0x02, error := 0x7F }, pend := s.pend ||| 1#9, result := .none } ∧
      exec (.sasiCmdRecalibrate b) s =
        .next { s with
          sasi := { d 0x01 with stat := 0x02, error := 0x7F }, pend := s.pend ||| 1#9, result := .none } ∧
      exec (.sasiCmdSeek b) s =
        .next { s with
          sasi := { d 0x0B with stat := 0x02, error := 0x7F }, pend := s.pend ||| 1#9, result := .none })

/-- 44_sasi R171, R172: Read and Write enter the Data phase, or end with status 0x02 and the code of the cause; Read
brings in the first block, Write touches neither the buffer nor the image. The block is taken into the command buffer
first (the model's choice, log 7). -/
def Obligations.SasiReadWriteCommands : Prop :=
  ∀ (s : State) (b : Cdb) (op : Byte) (rw : Bool) (i : Instr) (h : Option Handle) (d : Sasi), s.alive = true →
    (op = 0x08 ∧ rw = true ∧ i = .sasiCmdRead b ∨ op = 0x0A ∧ rw = false ∧ i = .sasiCmdWrite b) →
    h = (s.cfg.hd[2 * s.sasi.device.toNat + b.unit.toNat]?).join →
    d = { s.sasi with
      cmd := cmdOfBlock (b.block op), unit := b.unit, sector := b.sector.setWidth 32
      blocks := if b.blocks = 0 then 256 else b.blocks.setWidth 16, rw := rw, bufptr := 0, stat := 0x00 } →
    (h = none →
      exec i s =
        .next { s with
          sasi := { d with stat := 0x02, error := 0x7F, phase := .status }, pend := s.pend ||| 1#9
          result := .none }) ∧
    (h.isSome = true → s.imgOk h (b.sector.toNat * 256) 256 = false →
      exec i s =
        .next { s with
          sasi := { d with stat := 0x02, error := s.cfg.sasiErrIo, phase := .status }, pend := s.pend ||| 1#9
          result := .none }) ∧
    (∀ (k : Handle) (im : Image), h = some k → findImage s.store k = some im →
      b.sector.toNat * 256 + 256 ≤ im.size →
      ∃ t, exec i s = .next t ∧ t = { s with sasi := t.sasi, result := .none } ∧
        t.sasi = { d with buf := t.sasi.buf, phase := .data } ∧
        (∀ j : Fin 256, t.sasi.buf[j.val] =
          if rw then Memory.read im.bytes (b.sector.toNat * 256 + j.val) else s.sasi.buf[j.val]))

/-- 44_sasi R169, R180, 30_encoding R79: Request-Sense lays out the four sense bytes and clears the error; the
SenseStatus phase hands them over and ends in Status. The block is taken into the command buffer first (the model's
choice, log 7). -/
def Obligations.SasiSense : Prop :=
  ∀ (s : State) (b : Cdb), s.alive = true →
    exec (.sasiCmdRequestSense b) s =
      .next { s with
        sasi := { s.sasi with
          cmd := cmdOfBlock (b.block 0x03), unit := b.unit
          sense := #v[s.sasi.error, 0#2 ++ b.unit ++ s.sasi.sector.extractLsb' 16 5,
            s.sasi.sector.extractLsb' 8 8, s.sasi.sector.extractLsb' 0 8]
          error := 0x00, senseptr := 0, stat := 0x00, phase := .senseStatus }
        result := .none } ∧
    (∀ k : Fin 3, s.sasi.senseptr.toNat = k.val →
      exec .sasiSensebyte s =
        .next { s with
          sasi := { s.sasi with senseptr := s.sasi.senseptr + 1 }, result := .byte s.sasi.sense[k.val] }) ∧
    (s.sasi.senseptr = 3 →
      exec .sasiSensebyte s =
        .next { s with
          sasi := { s.sasi with senseptr := 0, phase := .status }, pend := s.pend ||| 1#9
          result := .byte s.sasi.sense[3] })

/-- 44_sasi R174, R181: the vendor command takes ten bytes, whatever they are, and ends in Status. The block is taken into
the command buffer first (the model's choice, log 7). -/
def Obligations.SasiVendor : Prop :=
  ∀ (s : State) (b : Cdb) (v : Byte), s.alive = true →
    exec (.sasiCmdVendorC2 b) s =
      .next { s with
        sasi := { s.sasi with cmd := cmdOfBlock (b.block 0xC2), unit := b.unit, vptr := 0, phase := .vendorInit }
        result := .none } ∧
    (s.sasi.vptr.toNat < 9 →
      exec (.sasiVendorbyte v) s =
        .next { s with sasi := { s.sasi with vptr := s.sasi.vptr + 1 }, result := .none }) ∧
    (s.sasi.vptr = 9 →
      exec (.sasiVendorbyte v) s =
        .next { s with
          sasi := { s.sasi with vptr := 0, stat := 0x00, phase := .status }, pend := s.pend ||| 1#9
          result := .none })

/-- 44_sasi R176: one byte of Data-Read, and what the last byte of a block brings. With no blocks to go the count
after the last byte is any number (the model's choice, log 29). -/
def Obligations.SasiDataIn : Prop :=
  ∀ (s : State) (p : BitVec 9) (h : Option Handle), s.alive = true →
    p = (if s.cfg.sasiIrqPerByte then s.pend ||| 1#9 else s.pend) →
    h = (s.cfg.hd[2 * s.sasi.device.toNat + s.sasi.unit.toNat]?).join →
    ∃ d : Sasi, d = { s.sasi with bufptr := 0, blocks := d.blocks, sector := s.sasi.sector + 1 } ∧
    (s.sasi.blocks ≠ 0 → d.blocks = s.sasi.blocks - 1) ∧
    (∀ k : Fin 255, s.sasi.bufptr.toNat = k.val →
      exec .sasiDatain s =
        .next { s with
          sasi := { s.sasi with bufptr := s.sasi.bufptr + 1 }, pend := p, result := .byte s.sasi.buf[k.val] }) ∧
    (s.sasi.bufptr = 255 → d.blocks = 0 →
      exec .sasiDatain s =
        .next { s with
          sasi := { d with phase := .status }, pend := p ||| 1#9, result := .byte s.sasi.buf[255] }) ∧
    (s.sasi.bufptr = 255 → d.blocks ≠ 0 → s.imgOk h (d.sector.toNat * 256) 256 = false →
      exec .sasiDatain s =
        .next { s with
          sasi := { d with stat := 0x02, error := s.cfg.sasiErrIo, phase := .status }, pend := p ||| 1#9
          result := .byte s.sasi.buf[255] }) ∧
    (∀ (k : Handle) (im : Image), s.sasi.bufptr = 255 → d.blocks ≠ 0 → h = some k →
      findImage s.store k = some im → d.sector.toNat * 256 + 256 ≤ im.size →
      ∃ t, exec .sasiDatain s = .next t ∧
        t = { s with sasi := { d with buf := t.sasi.buf }, pend := p, result := .byte s.sasi.buf[255] } ∧
        (∀ j : Fin 256, t.sasi.buf[j.val] = Memory.read im.bytes (d.sector.toNat * 256 + j.val)))

/-- 44_sasi R177: one byte of Data-Write. The image changes only at the last byte of a block, in that block's 256
bytes and no others. With no blocks to go the count after the last byte is any number (the model's choice, log 29). -/
def Obligations.SasiDataOut : Prop :=
  ∀ (s : State) (v : Byte) (p : BitVec 9) (h : Option Handle), s.alive = true →
    p = (if s.cfg.sasiIrqPerByte then s.pend ||| 1#9 else s.pend) →
    h = (s.cfg.hd[2 * s.sasi.device.toNat + s.sasi.unit.toNat]?).join →
    ∃ b : BitVec 16, (s.sasi.blocks ≠ 0 → b = s.sasi.blocks - 1) ∧
    (∀ k : Fin 255, s.sasi.bufptr.toNat = k.val →
      exec (.sasiDataout v) s =
        .next { s with
          sasi := { s.sasi with buf := s.sasi.buf.set k.val v, bufptr := s.sasi.bufptr + 1 }, pend := p
          result := .none }) ∧
    (s.sasi.bufptr = 255 → s.imgOk h (s.sasi.sector.toNat * 256) 256 = false →
      exec (.sasiDataout v) s =
        .next { s with
          sasi := { s.sasi with
            buf := s.sasi.buf.set 255 v, bufptr := 0, stat := 0x02, error := s.cfg.sasiErrIo, phase := .status }
          pend := p ||| 1#9, result := .none }) ∧
    (∀ (k : Handle) (im : Image), s.sasi.bufptr = 255 → h = some k → findImage s.store k = some im →
      Memory.wf im.size im.bytes = true → s.sasi.sector.toNat * 256 + 256 ≤ im.size →
      ∃ t, exec (.sasiDataout v) s = .next t ∧
        t = { s with sasi := t.sasi, pend := t.pend, store := t.store, result := .none } ∧
        (∃ im', findImage t.store k = some im' ∧ im'.size = im.size ∧
          ∀ a, Memory.read im'.bytes a =
            if s.sasi.sector.toNat * 256 ≤ a ∧ a < s.sasi.sector.toNat * 256 + 256 then
              (s.sasi.buf.set 255 v).toList.getD (a - s.sasi.sector.toNat * 256) 0
            else Memory.read im.bytes a) ∧
        (∀ j, j ≠ k → findImage t.store j = findImage s.store j) ∧
        (b = 0 ∨ im.size < (s.sasi.sector + 1).toNat * 256 + 256 →
          t.sasi.phase = .status ∧ t.pend = p ||| 1#9) ∧
        (b ≠ 0 → (s.sasi.sector + 1).toNat * 256 + 256 ≤ im.size →
          t.sasi.phase = s.sasi.phase ∧ t.pend = p) ∧
        t.sasi = { s.sasi with
          buf := s.sasi.buf.set 255 v, bufptr := 0, blocks := b, sector := s.sasi.sector + 1
          phase := t.sasi.phase
          stat := if b ≠ 0 ∧ im.size < (s.sasi.sector + 1).toNat * 256 + 256 then 0x02 else s.sasi.stat
          error := if b ≠ 0 ∧ im.size < (s.sasi.sector + 1).toNat * 256 + 256 then s.cfg.sasiErrIo
            else s.sasi.error })

/-- 44_sasi R178, R179, R182, R183: the status and the message byte, entering Status, and the accesses that do
nothing. -/
def Obligations.SasiStatusAndMessage : Prop :=
  ∀ (s : State) (v : Byte), s.alive = true →
    exec .sasiStatusbyte s =
      .next { s with sasi := { s.sasi with phase := .message }, result := .byte s.sasi.stat } ∧
    exec .sasiMsgbyte s =
      .next { s with sasi := { s.sasi with phase := .busFree, device := 0x7F }, result := .byte 0x00 } ∧
    exec .sasiEnterStatus s =
      .next { s with sasi := { s.sasi with phase := .status }, pend := s.pend ||| 1#9, result := .none } ∧
    exec .sasiNopRd s = .next { s with result := .byte 0x00 } ∧
    exec (.sasiNopWr v) s = .next { s with result := .none }

/-- 44_sasi R188, 60_exceptions R243: a phase violation ends the command with status 0x02 and `SASI_ERR_INVALID` and
drops what was partly transferred. -/
def Obligations.SasiViolation : Prop :=
  ∀ (s : State) (v : Byte) (d : Sasi), s.alive = true →
    d = { s.sasi with
      stat := 0x02, error := s.cfg.sasiErrInvalid, cmdptr := 0, bufptr := 0, senseptr := 0, vptr := 0
      phase := .status } →
    exec .sasiViolationRd s = .next { s with sasi := d, pend := s.pend ||| 1#9, result := .byte 0x00 } ∧
    exec (.sasiViolationWr v) s = .next { s with sasi := d, pend := s.pend ||| 1#9, result := .none }

/-- 44_sasi R185, 10_state R19: no transaction at any address takes the controller from a phase to one the table does
not list after it. -/
def Obligations.SasiPhaseTable : Prop :=
  ∀ (s t : State) (a : Addr) (v : Byte),
    exec (.busRd8 a) s = .next t ∨ exec (.busWr8 a v) s = .next t →
    t.sasi.phase ∈ Phase.mayFollow s.sasi.phase

/-- 44_sasi R187 (b): a Read of n blocks is exactly 256 n Data bytes, the image's in order, then one status and one
message byte. -/
def Obligations.SasiReadRunsToTheEnd : Prop :=
  ∀ (s : State) (k : Handle) (im : Image) (n : Nat), s.alive = true → 0 < n →
    s.sasi.phase = .data → s.sasi.bufptr = 0 → s.sasi.blocks.toNat = n →
    (s.cfg.hd[2 * s.sasi.device.toNat + s.sasi.unit.toNat]?).join = some k → findImage s.store k = some im →
    (s.sasi.sector.toNat + n) * 256 ≤ im.size → s.sasi.sector.toNat + n < 2 ^ 32 →
    (∀ j : Fin 256, s.sasi.buf[j.val] = Memory.read im.bytes (s.sasi.sector.toNat * 256 + j.val)) →
    ∃ (f : Nat → State) (u v : State), f 0 = s ∧
      (∀ i, i < 256 * n → (f i).sasi.phase = .data ∧ exec .sasiDatain (f i) = .next (f (i + 1)) ∧
        (f (i + 1)).result = .byte (Memory.read im.bytes (s.sasi.sector.toNat * 256 + i))) ∧
      (f (256 * n)).sasi.phase = .status ∧
      exec .sasiStatusbyte (f (256 * n)) = .next u ∧ u.result = .byte s.sasi.stat ∧ u.sasi.phase = .message ∧
      exec .sasiMsgbyte u = .next v ∧ v.result = .byte 0x00 ∧ v.sasi.phase = .busFree

/-- 44_sasi R184: the three primitives over a backing image; a write changes the bytes of its range and no others, of
its image and no other, and an image never grows; without a handle all three fail. That they fail too on a handle
for which the store holds no image is the model's choice (log 28). -/
def Obligations.ImagePrimitives : Prop :=
  ∀ (s : State) (h : Option Handle) (off n : Nat) (bs : List Byte), s.alive = true →
    (∀ (k : Handle) (im : Image), h = some k → findImage s.store k = some im →
      exec (.imgOk h off n) s = .next { s with result := .succeeded (decide (off + n ≤ im.size)) } ∧
      (im.size < off + n → exec (.imgRead h off n) s = .next { s with result := .bytes none }) ∧
      (off + n ≤ im.size → ∃ r : List Byte, r.length = n ∧
        (∀ j, j < n → r[j]? = some (Memory.read im.bytes (off + j))) ∧
        exec (.imgRead h off n) s = .next { s with result := .bytes (some r) }) ∧
      (im.size < off + bs.length →
        exec (.imgWrite h off bs) s = .next { s with result := .succeeded false }) ∧
      (off + bs.length ≤ im.size → Memory.wf im.size im.bytes = true →
        ∃ t im', exec (.imgWrite h off bs) s = .next t ∧
          t = { s with store := t.store, result := .succeeded true } ∧
          findImage t.store k = some im' ∧ im'.size = im.size ∧
          (∀ a, Memory.read im'.bytes a =
            if off ≤ a ∧ a < off + bs.length then bs.getD (a - off) 0 else Memory.read im.bytes a) ∧
          (∀ j, j ≠ k → findImage t.store j = findImage s.store j))) ∧
    (exec (.imgOk none off n) s = .next { s with result := .succeeded false } ∧
      exec (.imgRead none off n) s = .next { s with result := .bytes none } ∧
      exec (.imgWrite none off bs) s = .next { s with result := .succeeded false }) ∧
    (∀ k, h = some k → findImage s.store k = none →
      exec (.imgOk h off n) s = .next { s with result := .succeeded false } ∧
      exec (.imgRead h off n) s = .next { s with result := .bytes none } ∧
      exec (.imgWrite h off bs) s = .next { s with result := .succeeded false })

/-! ### The bus and memory -/

/-- 20_memory R40, R62: the bus answers every access in every state, with no fault and no refusal; the host's accesses
are the same ones. -/
def Obligations.BusIsTotal : Prop :=
  ∀ (s : State) (a : Addr) (v : Byte) (w : BitVec 16) (l : BitVec 32), s.alive = true →
    (∃ t b, exec (.busRd8 a) s = .next t ∧ t.result = .byte b) ∧
    (∃ t, exec (.busWr8 a v) s = .next t ∧ t.result = .none) ∧
    (∃ t b, exec (.busRd16 a) s = .next t ∧ t.result = .half b) ∧
    (∃ t, exec (.busWr16 a w) s = .next t ∧ t.result = .none) ∧
    (∃ t b, exec (.busRd32 a) s = .next t ∧ t.result = .word b) ∧
    (∃ t, exec (.busWr32 a l) s = .next t ∧ t.result = .none) ∧
    (s.sched.seq = .idle →
      exec (.hostBusRd a) s = exec (.busRd8 a) s ∧ exec (.hostBusWr a v) s = exec (.busWr8 a v) s)

/-- 30_encoding R70, R73, 20_memory R47, R51, 40_bus R90, R91, 44_sasi R160, R166: a byte transaction is the port operation
its address decodes to, an access of the SASI data port the operation of its phase, and the sixth command byte's
execution the command the 48 bits of the buffer decode to. Under the default map, which addresses reach which port. -/
def Obligations.DecodingChain : Prop :=
  ∀ (s : State) (a : Addr) (v : Byte),
    exec (.busRd8 a) s = exec (decodePort s.cfg.map (portKey false a) 0) s ∧
    exec (.busWr8 a v) s = exec (decodePort s.cfg.map (portKey true a) v) s ∧
    exec .sasiDataRd s = exec (match s.sasi.phase with
      | .data => if s.sasi.rw then .sasiDatain else .sasiViolationRd
      | .status => .sasiStatusbyte | .message => .sasiMsgbyte | .senseStatus => .sasiSensebyte
      | .command | .vendorInit => .sasiViolationRd
      | .busFree | .selection => .sasiNopRd) s ∧
    exec (.sasiDataWr v) s = exec (match s.sasi.phase with
      | .command => .sasiCmdbyte v
      | .data => if s.sasi.rw then .sasiViolationWr v else .sasiDataout v
      | .vendorInit => .sasiVendorbyte v | .senseStatus => .sasiViolationWr v
      | .busFree | .selection | .status | .message => .sasiNopWr v) s ∧
    exec .sasiExecute s = exec (decodeCdb6 s.sasi.block) s ∧
    (s.cfg.map = defaultMap s.cfg.ramSize → 0 < s.cfg.ramSize → s.cfg.ramSize ≤ 0xC00000 →
      (a.toNat < s.cfg.ramSize →
        exec (.busRd8 a) s = exec (.ramRd a) s ∧ exec (.busWr8 a v) s = exec (.ramWr a v) s) ∧
      (s.cfg.ramSize ≤ a.toNat ∧ a.toNat ≤ 0xBFFFFF ∨ 0xED4000 ≤ a.toNat ∧ a.toNat ≤ 0xEFFFFF ∨
          0xFC0000 ≤ a.toNat ∧ a.toNat ≤ 0xFDFFFF →
        exec (.busRd8 a) s = exec (.unmappedRd a) s ∧ exec (.busWr8 a v) s = exec (.unmappedWr a v) s) ∧
      (0xE8A000 ≤ a.toNat → a.toNat ≤ 0xE8BFFF →
        (a.toNat % 2 = 1 →
          exec (.busRd8 a) s = exec (.rtcRegRd a) s ∧ exec (.busWr8 a v) s = exec (.rtcRegWr a v) s) ∧
        (a.toNat % 2 = 0 →
          exec (.busRd8 a) s = exec (.unmappedRd a) s ∧ exec (.busWr8 a v) s = exec (.unmappedWr a v) s)) ∧
      (a = 0xE8E00D →
        exec (.busRd8 a) s = exec (.unmappedRd a) s ∧ exec (.busWr8 a v) s = exec (.sysportSramweWr v) s) ∧
      (0xE96000 ≤ a.toNat → a.toNat ≤ 0xE97FFF →
        exec (.busRd8 a) s = exec (if a = 0xE96001 then .sasiDataRd else if a = 0xE96003 then .sasiStatusRd
          else .unmappedRd a) s ∧
        exec (.busWr8 a v) s = exec (if a = 0xE96001 then .sasiDataWr v else if a = 0xE96003 then .sasiAckselWr v
          else if a = 0xE96005 then .sasiResetWr v else if a = 0xE96007 then .sasiSelectWr v
          else .unmappedWr a v) s) ∧
      (0xEA0000 ≤ a.toNat → a.toNat ≤ 0xEA1FFF →
        exec (.busRd8 a) s = exec (.scsiromRd a) s ∧ exec (.busWr8 a v) s = exec (.unmappedWr a v) s) ∧
      (0xED0000 ≤ a.toNat → a.toNat ≤ 0xED3FFF →
        exec (.busRd8 a) s = exec (.sramRd a) s ∧ exec (.busWr8 a v) s = exec (.sramWr a v) s) ∧
      (0xF00000 ≤ a.toNat ∧ a.toNat ≤ 0xFBFFFF ∨ 0xFE0000 ≤ a.toNat →
        exec (.busRd8 a) s = exec (.romRd a) s ∧ exec (.busWr8 a v) s = exec (.unmappedWr a v) s) ∧
      (∀ x lo hi, (x, lo, hi) ∈ ([(.videoMem, 0xC00000, 0xE7FFFF), (.crtcVc, 0xE80000, 0xE83FFF),
          (.dmacRegs, 0xE84000, 0xE85FFF), (.areaSet, 0xE86000, 0xE87FFF), (.mfp, 0xE88000, 0xE89FFF),
          (.printer, 0xE8C000, 0xE8DFFF), (.sysportOther, 0xE8E000, 0xE8FFFF), (.sound, 0xE90000, 0xE93FFF),
          (.fdc, 0xE94000, 0xE95FFF), (.ioMisc, 0xE98000, 0xE9FFFF),
          (.expansion, 0xEA2000, 0xECFFFF)] : List (ExtWindow × Nat × Nat)) →
        lo ≤ a.toNat → a.toNat ≤ hi → a ≠ 0xE8E00D →
        portDecode s.cfg.map false a = .extRd x ∧ portDecode s.cfg.map true a = .extWr x ∧
        exec (.busRd8 a) s = exec (.extRd a) s ∧ exec (.busWr8 a v) s = exec (.extWr a v) s))

/-- 40_bus R92 to R95, 20_memory R44, R46: a wider access is its bytes' accesses at ascending addresses modulo 2^24,
most significant byte first. -/
def Obligations.BusWideIsBytes : Prop :=
  ∀ (s : State) (a : Addr), s.alive = true →
    (∃ (t u : State) (h l : Byte),
      exec (.busRd8 a) s = .next t ∧ t.result = .byte h ∧
      exec (.busRd8 (a + 1)) t = .next u ∧ u.result = .byte l ∧
      exec (.busRd16 a) s = .next { u with result := .half (h ++ l) }) ∧
    (∃ (t u v w : State) (b0 b1 b2 b3 : Byte),
      exec (.busRd8 a) s = .next t ∧ t.result = .byte b0 ∧
      exec (.busRd8 (a + 1)) t = .next u ∧ u.result = .byte b1 ∧
      exec (.busRd8 (a + 2)) u = .next v ∧ v.result = .byte b2 ∧
      exec (.busRd8 (a + 3)) v = .next w ∧ w.result = .byte b3 ∧
      exec (.busRd32 a) s = .next { w with result := .word (b0 ++ b1 ++ b2 ++ b3) }) ∧
    (∀ h l : Byte, ∃ t, exec (.busWr8 a h) s = .next t ∧
      exec (.busWr16 a (h ++ l)) s = exec (.busWr8 (a + 1) l) t) ∧
    (∀ b0 b1 b2 b3 : Byte, ∃ t u v, exec (.busWr8 a b0) s = .next t ∧ exec (.busWr8 (a + 1) b1) t = .next u ∧
      exec (.busWr8 (a + 2) b2) u = .next v ∧
      exec (.busWr32 a (b0 ++ b1 ++ b2 ++ b3)) s = exec (.busWr8 (a + 3) b3) v)

/-- 40_bus R96, 20_memory R48: RAM keeps what is written to it, byte by byte, and a RAM access does nothing else; on the
bus too, a byte written to a RAM address of the default map is the byte read there next (property S1). -/
def Obligations.RamStores : Prop :=
  ∀ (s : State) (a : Addr) (v : Byte), s.alive = true → Memory.wf s.cfg.ramSize s.ram = true →
    a.toNat < s.cfg.ramSize →
    exec (.ramRd a) s = .next { s with result := .byte (Memory.read s.ram a.toNat) } ∧
    (∃ t, exec (.ramWr a v) s = .next t ∧ t = { s with ram := t.ram, result := .none } ∧
      (∀ b, Memory.read t.ram b = if b = a.toNat then v else Memory.read s.ram b) ∧
      exec (.ramRd a) t = .next { t with result := .byte v }) ∧
    (s.cfg.map = defaultMap s.cfg.ramSize →
      ∃ t, exec (.busWr8 a v) s = .next t ∧ t = { s with ram := t.ram, result := .none } ∧
        exec (.busRd8 a) t = .next { t with result := .byte v } ∧
        ∀ b : Addr, b ≠ a → b.toNat < s.cfg.ramSize →
          exec (.busRd8 b) t = .next { t with result := .byte (Memory.read s.ram b.toNat) })

/-- 45_peripheral R215, R217, R218, 20_memory R48, R50: SRAM is written only while the key 0x31 has enabled it, and always
read; on the bus too, a byte written while it is enabled is the byte read there next, and is dropped otherwise. -/
def Obligations.SramGated : Prop :=
  ∀ (s : State) (a : Addr) (v key : Byte), s.alive = true → s.cfg.map = defaultMap s.cfg.ramSize →
    s.cfg.ramSize ≤ 0xC00000 → Memory.wf 0x4000 s.sram = true → 0xED0000 ≤ a.toNat → a.toNat ≤ 0xED3FFF →
    exec (.sysportSramweWr key) s = .next { s with sramWe := decide (key = 0x31), result := .none } ∧
    exec (.sramRd a) s = .next { s with result := .byte (Memory.read s.sram (a.toNat - 0xED0000)) } ∧
    (s.sramWe = false →
      exec (.sramWr a v) s = .next { s with result := .none } ∧
      exec (.busWr8 a v) s = .next { s with result := .none }) ∧
    (s.sramWe = true → ∃ t, exec (.sramWr a v) s = .next t ∧ t = { s with sram := t.sram, result := .none } ∧
      (∀ b, Memory.read t.sram b = if b = a.toNat - 0xED0000 then v else Memory.read s.sram b) ∧
      exec (.busWr8 a v) s = .next t ∧ exec (.busRd8 a) t = .next { t with result := .byte v })

/-- 40_bus R97, R98, 45_peripheral R220, 20_memory R49: the read-only regions answer their images, everything without a
handler answers `OPEN_BUS`, and none of these accesses changes anything. -/
def Obligations.ReadOnlyRegions : Prop :=
  ∀ (s : State) (a : Addr) (v : Byte) (boot cg : Rom), s.alive = true → s.cfg.map = defaultMap s.cfg.ramSize →
    s.cfg.ramSize ≤ 0xC00000 → s.cfg.bootRom = some boot → boot.len = 0x20000 → s.cfg.cgRom = some cg →
    cg.len = 0xC0000 →
    (0xFE0000 ≤ a.toNat →
      exec (.romRd a) s = .next { s with
        result := .byte (((boot.cells.find? fun c => c.1 == a.toNat - 0xFE0000).map Prod.snd).getD boot.fill) }) ∧
    (0xF00000 ≤ a.toNat → a.toNat ≤ 0xFBFFFF →
      exec (.romRd a) s = .next { s with
        result := .byte (((cg.cells.find? fun c => c.1 == a.toNat - 0xF00000).map Prod.snd).getD cg.fill) }) ∧
    (0xEA0000 ≤ a.toNat → a.toNat ≤ 0xEA1FFF →
      exec (.scsiromRd a) s = .next { s with
        result := .byte (if a.toNat - 0xEA0000 < s.cfg.scsiRom.len then
            ((s.cfg.scsiRom.cells.find? fun c => c.1 == a.toNat - 0xEA0000).map Prod.snd).getD s.cfg.scsiRom.fill
          else s.cfg.openBus) }) ∧
    exec (.unmappedRd a) s = .next { s with result := .byte s.cfg.openBus } ∧
    exec (.unmappedWr a v) s = .next { s with result := .none }

/-- 40_bus R99, 20_memory R47, R52, 10_state R33: a transaction to an external window goes out, the events its device may
inject are performed in order, each the operation it names, and a read answers a drawn byte; nothing else happens. Which
device may inject what is DEDUCED (log 14). -/
def Obligations.ExtWindowsTouchOnlyEvents : Prop :=
  ∀ (s : State) (a : Addr) (v : Byte), s.alive = true →
    (∃ (u t : State) (later : List Call),
      u = (s.nextExtEvents.filter (deviceAllows s.cfg false a)).foldl State.applyEvent
        (s.drewExtEvents.call (.extRead a)) ∧
      exec (.extRd a) s = .next t ∧ t = { u.drewExtByte with result := .byte u.nextExtByte } ∧
      t = { s with
        pend := t.pend, sched := { s.sched with fastclrPending := t.sched.fastclrPending }, dma := s.dma
        fdd := t.fdd, store := t.store, inputs := t.inputs, calls := later ++ .extRead a :: s.calls
        result := t.result } ∧
      t.fdd.length = s.fdd.length ∧
      ∀ src, src ≠ .mfpTimer → src ≠ .fdc → pending t.pend src = pending s.pend src) ∧
    (∃ (u t : State) (later : List Call),
      u = (s.nextExtEvents.filter (deviceAllows s.cfg true a)).foldl State.applyEvent
        (s.drewExtEvents.call (.extWrite a v)) ∧
      exec (.extWr a v) s = .next t ∧ t = { u with result := .none } ∧
      t = { s with
        pend := t.pend, sched := { s.sched with fastclrPending := t.sched.fastclrPending }, dma := t.dma
        fdd := t.fdd, store := t.store, inputs := t.inputs, calls := later ++ .extWrite a v :: s.calls
        result := .none } ∧
      t.fdd.length = s.fdd.length ∧
      ∀ src, src ≠ .mfpTimer → src ≠ .fdc → pending t.pend src = pending s.pend src) ∧
    (∀ (rw : Bool) (x : ExtWindow) (src : Src) (d lba : Nat) (bs : List Byte) (c ss ds : BitVec 2) (p q : Addr)
      (n : BitVec 16), portDecode s.cfg.map rw a = .extRd x ∨ portDecode s.cfg.map rw a = .extWr x →
      (deviceAllows s.cfg rw a (.irqRequest src) = true ↔ x = .mfp ∧ src = .mfpTimer ∨ x = .fdc ∧ src = .fdc) ∧
      (deviceAllows s.cfg rw a .fastclrRequest = true ↔ x = .crtcVc) ∧
      (deviceAllows s.cfg rw a (.fddReadSector d lba) = true ↔ x = .fdc) ∧
      (deviceAllows s.cfg rw a (.fddWriteSector d lba bs) = true ↔
        x = .fdc ∧ bs.length = s.cfg.fddSectorSize) ∧
      (deviceAllows s.cfg rw a (.dmaStart c p q n ss ds) = true ↔ x = .dmacRegs ∧ rw = true)) ∧
    (∀ (src : Src) (d lba : Nat) (bs : List Byte) (c ss ds : BitVec 2) (p q : Addr) (n : BitVec 16),
      exec (.irqRequest (BitVec.ofNat 4 src.id.val)) s =
        .next { s.applyEvent (.irqRequest src) with result := .none } ∧
      exec .fastclrRequest s = .next { s.applyEvent .fastclrRequest with result := .none } ∧
      (∃ t r, exec (.fddReadSector d lba) s = .next t ∧ t.result = .bytes r ∧
        s.applyEvent (.fddReadSector d lba) =
          { t with calls := .sectorRead r :: t.calls, result := s.result }) ∧
      (∃ t r, exec (.fddWriteSector d lba bs) s = .next t ∧ t.result = .succeeded r ∧
        s.applyEvent (.fddWriteSector d lba bs) =
          { t with calls := .sectorWritten r :: t.calls, result := s.result }) ∧
      exec (.dmaStart c p q n ss ds) s =
        .next { s.applyEvent (.dmaStart c p q n ss ds) with result := .none })

/-! ### Floppy drives -/

/-- 45_peripheral R200 to R203, R206: the media operations change their own drive and no other, and none past the last
drive; the queries change nothing. -/
def Obligations.FddMedia : Prop :=
  ∀ (s : State) (d : Nat) (h : Handle) (g : Option Handle), s.hostReady = true →
    exec (.fddInsert d h) s =
      .next { s with
        fdd := s.fdd.set d { inserted := true, reading := false, image := some h }, result := .none } ∧
    exec (.fddEject d) s =
      .next { s with fdd := s.fdd.set d { inserted := false, reading := false, image := none }, result := .none } ∧
    (∀ f, s.fdd[d]? = some f →
      exec (.fddSetImage d g) s = .next { s with fdd := s.fdd.set d { f with image := g }, result := .none } ∧
      exec (.fddGetImage d) s = .next { s with result := .handle f.image } ∧
      exec (.fddIsReading d) s = .next { s with result := .bit f.reading }) ∧
    (s.fdd.length ≤ d →
      exec (.fddSetImage d g) s = .next { s with result := .none } ∧
      exec (.fddGetImage d) s = .next { s with result := .handle none } ∧
      exec (.fddIsReading d) s = .next { s with result := .bit false })

/-- 45_peripheral R204, R205: a sector read sets the drive's flag and answers the sector or fail; a sector write sets
no flag; without a drive, media or handle both fail and change nothing. -/
def Obligations.FddSectors : Prop :=
  ∀ (s : State) (d lba : Nat) (bs : List Byte), s.alive = true →
    (∀ f h, s.fdd[d]? = some f → f.inserted = true → f.image = some h →
      exec (.fddReadSector d lba) s =
        .next { s with
          fdd := s.fdd.set d { f with reading := true }
          result := .bytes (s.imgRead (some h) (lba * s.cfg.fddSectorSize) s.cfg.fddSectorSize) } ∧
      exec (.fddWriteSector d lba bs) s = exec (.imgWrite (some h) (lba * s.cfg.fddSectorSize) bs) s) ∧
    ((∀ f, s.fdd[d]? = some f → f.inserted = false ∨ f.image = none) →
      exec (.fddReadSector d lba) s = .next { s with result := .bytes none } ∧
      exec (.fddWriteSector d lba bs) s = .next { s with result := .succeeded false })

/-! ### Real-time clock and timers -/

/-- 45_peripheral R210, R211, R213, 30_encoding R83: what an RTC register reads as and what a write to it stores; a live
digit is that of the clock drawn, in the range of its register. -/
def Obligations.RtcRegisters : Prop :=
  ∀ (s : State) (a : Addr) (v : Byte) (i : Nat) (n : BitVec 4), s.alive = true →
    i = (a.extractLsb' 1 4).toNat → n = v.extractLsb' 0 4 →
    (i = 13 → exec (.rtcRegRd a) s = .next { s with result := .byte (s.cfg.rtcHiNibble ++ s.rtc.mode) } ∧
      exec (.rtcRegWr a v) s = .next { s with rtc := { s.rtc with mode := n }, result := .none }) ∧
    (i = 14 → exec (.rtcRegRd a) s = .next { s with result := .byte (s.cfg.rtcHiNibble ++ 0#4) } ∧
      exec (.rtcRegWr a v) s = .next { s with result := .none }) ∧
    (i = 15 → exec (.rtcRegRd a) s = .next { s with result := .byte (s.cfg.rtcHiNibble ++ 0#4) } ∧
      exec (.rtcRegWr a v) s =
        .next { s with
          rtc := { s.rtc with
            r15 := n, ta := if n.getLsbD 1 then 0 else s.rtc.ta, tb := if n.getLsbD 1 then 0 else s.rtc.tb }
          result := .none }) ∧
    (∀ k : Fin 13, i = k.val → s.rtc.mode.getLsbD 0 = true →
      exec (.rtcRegRd a) s = .next { s with result := .byte (s.cfg.rtcHiNibble ++ s.rtc.b1[k.val]) } ∧
      exec (.rtcRegWr a v) s = .next { s with rtc := { s.rtc with b1 := s.rtc.b1.set k.val n }, result := .none }) ∧
    (∀ now, now = s.nextNow → i ≤ 12 → s.rtc.mode.getLsbD 0 = false →
      exec (.rtcRegRd a) s = .next { s.drewNow with
        result := .byte (s.cfg.rtcHiNibble ++ BitVec.ofNat 4 (([now.second.val % 10, now.second.val / 10,
          now.minute.val % 10, now.minute.val / 10, now.hour.val % 10, now.hour.val / 10, now.weekday.val,
          (now.day.val + 1) % 10, (now.day.val + 1) / 10, (now.month.val + 1) % 10, (now.month.val + 1) / 10,
          now.year.val % 10, now.year.val / 10] : List Nat).getD i 0)) } ∧
      (liveDigit now i).toNat ≤ ([9, 5, 9, 5, 9, 2, 6, 9, 3, 9, 1, 9, 9] : List Nat).getD i 0 ∧
      exec (.rtcRegWr a v) s = .next { s with result := .none })

/-- 45_peripheral R212: the accumulators keep the remainder of their period, and a pulse requests `SRC_RTC` unless its
bit of register 15 turns it off. -/
def Obligations.RtcTimersPulse : Prop :=
  ∀ (s : State) (used : BitVec 32), s.alive = true → 1 ≤ s.cfg.rtcPeriodA → 1 ≤ s.cfg.rtcPeriodB →
    s.rtc.ta.toNat + used.toNat < 2 ^ 32 → s.rtc.tb.toNat + used.toNat < 2 ^ 32 →
    ∃ t, exec (.rtcTick used) s = .next t ∧
      t = { s with rtc := { s.rtc with ta := t.rtc.ta, tb := t.rtc.tb }, pend := t.pend, result := .none } ∧
      t.rtc.ta.toNat = (s.rtc.ta.toNat + used.toNat) % s.cfg.rtcPeriodA ∧
      t.rtc.tb.toNat = (s.rtc.tb.toNat + used.toNat) % s.cfg.rtcPeriodB ∧
      ∀ src, pending t.pend src = (pending s.pend src ||
        (src == .rtc &&
          ((decide (s.cfg.rtcPeriodA ≤ s.rtc.ta.toNat + used.toNat) && !s.rtc.r15.getLsbD 3) ||
           (decide (s.cfg.rtcPeriodB ≤ s.rtc.tb.toNat + used.toNat) && !s.rtc.r15.getLsbD 2))))

/-- 41_scheduler R126: a tick advances the RTC, tells the external timers, and then performs the events they inject, in
order (each the operation it names, as in ExtWindowsTouchOnlyEvents), through which alone it changes anything else.
Which events a tick may carry, a fast-clear request among them, is DEDUCED (log 14). -/
def Obligations.TimersTickFrame : Prop :=
  ∀ (s : State) (used : BitVec 32), s.alive = true →
    (∃ u t later, exec (.rtcTick used) s = .next u ∧ exec (.timersTick used) s = .next t ∧
      t = (s.nextExtEvents.filter (tickAllows s.cfg)).foldl State.applyEvent
        { u.drewExtEvents with emitted := .extTick used.toNat :: s.emitted } ∧
      t = { u with
        pend := t.pend, sched := { s.sched with fastclrPending := t.sched.fastclrPending }, fdd := t.fdd
        store := t.store, inputs := t.inputs, calls := later ++ s.calls
        emitted := .extTick used.toNat :: s.emitted } ∧
      (∀ c ∈ later, (∃ r, c = .sectorRead r) ∨ ∃ ok, c = .sectorWritten ok) ∧
      t.fdd.length = s.fdd.length ∧
      ∀ src, src ≠ .mfpTimer → src ≠ .fdc → pending t.pend src = pending u.pend src) ∧
    ∀ (src : Src) (d lba : Nat) (bs : List Byte) (c ss ds : BitVec 2) (p q : Addr) (n : BitVec 16),
      (tickAllows s.cfg (.irqRequest src) = true ↔ src = .mfpTimer ∨ src = .fdc) ∧
      tickAllows s.cfg .fastclrRequest = true ∧ tickAllows s.cfg (.fddReadSector d lba) = true ∧
      (tickAllows s.cfg (.fddWriteSector d lba bs) = true ↔ bs.length = s.cfg.fddSectorSize) ∧
      tickAllows s.cfg (.dmaStart c p q n ss ds) = false

/-! ### Snapshots -/

/-- 46_snapshot R230, R232, 30_encoding R85: `SAVE` changes nothing and answers a buffer of exactly the stated length,
which its first four bytes give where they can (past 2^32 they are any four bytes: the model's choice, log 30). Every
row of Table S stands in it at its place (Safety gives the places): a scalar most significant byte first, the pending
bits packed, an array and a memory element by element, in durable mode the names before the blocks. -/
def Obligations.SaveHasTheStatedSize : Prop :=
  ∀ (s : State) (mode : SnapMode), s.hostReady = true → s.fdd.length = s.cfg.numFdd →
    ∃ b, exec (.save mode) s = .next { s with result := .buffer b } ∧
      b.length = 16783 + 2 * s.cfg.numFdd + s.cfg.ramSize + (if mode = .durable then 50 else 0) ∧
      (b.length < 2 ^ 32 → bufferValue b 0 4 = b.length) ∧
      (mode = .durable → SnapshotNames s.cfg b) ∧
      StreamScalars s mode b ∧ StreamPending s mode b ∧ StreamArrays s mode b

/-- 46_snapshot R231, R235, R236, 30_encoding R85, 60_exceptions R245: `LOAD` accepts a buffer exactly where its bytes
are valid (SnapshotValid spells R235 out byte by byte: the length and its word, the names and their lengths, the
unused bits, the reserved codes, the ranges). It then sets the rows of Table S to the values the buffer encodes, so
that `SAVE` answers that buffer again, and changes nothing else; any other buffer is refused and nothing changes. A
buffer of another length, and one saved in the other mode, are such buffers. -/
def Obligations.LoadIsAllOrNothing : Prop :=
  ∀ (s : State) (mode : SnapMode) (buf : List Byte), s.hostReady = true →
    (¬SnapshotValid s.cfg mode buf → exec (.load mode buf) s = .next { s with result := .stateIntegrityError }) ∧
    (SnapshotValid s.cfg mode buf →
      ∃ t, exec (.load mode buf) s = .next t ∧
        t = { s with
          clk := t.clk, sched := t.sched, pend := t.pend, dma := t.dma, sasi := t.sasi, fdd := t.fdd, rtc := t.rtc
          sramWe := t.sramWe, sram := t.sram, ram := t.ram, result := .ok } ∧
        (s.fdd.length = s.cfg.numFdd → exec (.save mode) t = .next { t with result := .buffer buf }) ∧
        (∀ d, (t.fdd[d]?).map Fdd.image = if d < t.fdd.length then (s.fdd[d]?).map Fdd.image else none) ∧
        t.sched.seq = .idle ∧ t.clk.line = 0 ∧ t.sched.skipq.toNat ≤ s.cfg.frameskipMax ∧
        (∀ c : Fin 3, t.dma[c.val].active = true → t.dma[c.val].count ≠ 0) ∧
        t.sasi.cmdptr.toNat ≤ 5 ∧ t.sasi.bufptr.toNat ≤ 255 ∧ t.sasi.senseptr.toNat ≤ 3 ∧
        t.sasi.vptr.toNat ≤ 9 ∧ (t.sasi.device.toNat ≤ 7 ∨ t.sasi.device = 0x7F)) ∧
    (buf.length ≠ 16783 + 2 * s.cfg.numFdd + s.cfg.ramSize + (if mode = .durable then 50 else 0) →
      exec (.load mode buf) s = .next { s with result := .stateIntegrityError }) ∧
    (∀ other b, other ≠ mode → s.fdd.length = s.cfg.numFdd →
      exec (.save other) s = .next { s with result := .buffer b } →
      exec (.load mode b) s = .next { s with result := .stateIntegrityError })

/-- 46_snapshot R231, R233: a `LOAD` of what `SAVE` answered puts every row of Table S at its value of that time and changes
nothing else (not the drives' image handles, the images, the configuration); with nothing in between it leaves every
field as it was. The length word has 32 bits, so the stream must be shorter than 2^32 bytes. -/
def Obligations.SaveLoadRoundTrip : Prop :=
  ∀ (s s' : State) (mode : SnapMode), s.hostReady = true → s'.hostReady = true → s.Inv → s.LineInv → s'.Inv →
    s'.cfg = s.cfg → 16833 + 2 * s.cfg.numFdd + s.cfg.ramSize < 2 ^ 32 →
    ∃ b, exec (.save mode) s = .next { s with result := .buffer b } ∧
      exec (.load mode b) s' = .next { s' with
        clk := s.clk, sched := s.sched, pend := s.pend, dma := s.dma, sasi := s.sasi
        fdd := List.zipWith (fun here saved => { saved with image := here.image }) s'.fdd s.fdd
        rtc := s.rtc, sramWe := s.sramWe, sram := s.sram, ram := s.ram, result := .ok } ∧
      exec (.load mode b) s = .next { s with result := .ok }

/-- 46_snapshot R234, 42_interrupt R134: what an operation does follows from the block's state and the inputs alone: with
more sent out before it, or another result before it, it does and sends the same. The vector delivered is a function of
the block's state (10_state R32), whatever else differs. That the sent events and calls are fields of the state is the
model's (log 10), and so is the form of the vector callback (log 9). -/
def Obligations.OperationsIgnoreThePast : Prop :=
  (∀ (i : Instr) (s t : State) (e : List OutEvent) (c : List Call) (r : Result), exec i s = .next t →
    exec i { s with emitted := s.emitted ++ e, calls := s.calls ++ c, result := r } =
      .next { t with emitted := t.emitted ++ e, calls := t.calls ++ c }) ∧
  ∀ s t : State, s.alive = true → t.alive = true → s.block = t.block → s.cfg = t.cfg →
    ∃ u w, exec .irqResolve s = .next u ∧ exec .irqResolve t = .next w ∧ u.result = w.result ∧ u.block = w.block
end

