-- ==== Sys2Proof/Laws/State.lean ====
section
/-! SUPPORT. One lemma for each field under each update of the state, so that no proof unfolds a record update. -/

namespace Sys2Proof.Machine

@[simp] theorem State.emit_clk (s : State) (e : OutEvent) : (s.emit e).clk = s.clk := rfl
@[simp] theorem State.emit_sched (s : State) (e : OutEvent) : (s.emit e).sched = s.sched := rfl
@[simp] theorem State.emit_pend (s : State) (e : OutEvent) : (s.emit e).pend = s.pend := rfl
@[simp] theorem State.emit_dma (s : State) (e : OutEvent) : (s.emit e).dma = s.dma := rfl
@[simp] theorem State.emit_sasi (s : State) (e : OutEvent) : (s.emit e).sasi = s.sasi := rfl
@[simp] theorem State.emit_fdd (s : State) (e : OutEvent) : (s.emit e).fdd = s.fdd := rfl
@[simp] theorem State.emit_rtc (s : State) (e : OutEvent) : (s.emit e).rtc = s.rtc := rfl
@[simp] theorem State.emit_sramWe (s : State) (e : OutEvent) : (s.emit e).sramWe = s.sramWe := rfl
@[simp] theorem State.emit_sram (s : State) (e : OutEvent) : (s.emit e).sram = s.sram := rfl
@[simp] theorem State.emit_ram (s : State) (e : OutEvent) : (s.emit e).ram = s.ram := rfl
@[simp] theorem State.emit_store (s : State) (e : OutEvent) : (s.emit e).store = s.store := rfl
@[simp] theorem State.emit_cfg (s : State) (e : OutEvent) : (s.emit e).cfg = s.cfg := rfl
@[simp] theorem State.emit_alive (s : State) (e : OutEvent) : (s.emit e).alive = s.alive := rfl
@[simp] theorem State.emit_queue (s : State) (e : OutEvent) : (s.emit e).queue = s.queue := rfl
@[simp] theorem State.emit_inputs (s : State) (e : OutEvent) : (s.emit e).inputs = s.inputs := rfl
@[simp] theorem State.emit_emitted (s : State) (e : OutEvent) : (s.emit e).emitted = e :: s.emitted := rfl
@[simp] theorem State.emit_calls (s : State) (e : OutEvent) : (s.emit e).calls = s.calls := rfl
@[simp] theorem State.emit_result (s : State) (e : OutEvent) : (s.emit e).result = s.result := rfl

@[simp] theorem State.call_clk (s : State) (c : Call) : (s.call c).clk = s.clk := rfl
@[simp] theorem State.call_sched (s : State) (c : Call) : (s.call c).sched = s.sched := rfl
@[simp] theorem State.call_pend (s : State) (c : Call) : (s.call c).pend = s.pend := rfl
@[simp] theorem State.call_dma (s : State) (c : Call) : (s.call c).dma = s.dma := rfl
@[simp] theorem State.call_sasi (s : State) (c : Call) : (s.call c).sasi = s.sasi := rfl
@[simp] theorem State.call_fdd (s : State) (c : Call) : (s.call c).fdd = s.fdd := rfl
@[simp] theorem State.call_rtc (s : State) (c : Call) : (s.call c).rtc = s.rtc := rfl
@[simp] theorem State.call_sramWe (s : State) (c : Call) : (s.call c).sramWe = s.sramWe := rfl
@[simp] theorem State.call_sram (s : State) (c : Call) : (s.call c).sram = s.sram := rfl
@[simp] theorem State.call_ram (s : State) (c : Call) : (s.call c).ram = s.ram := rfl
@[simp] theorem State.call_store (s : State) (c : Call) : (s.call c).store = s.store := rfl
@[simp] theorem State.call_cfg (s : State) (c : Call) : (s.call c).cfg = s.cfg := rfl
@[simp] theorem State.call_alive (s : State) (c : Call) : (s.call c).alive = s.alive := rfl
@[simp] theorem State.call_queue (s : State) (c : Call) : (s.call c).queue = s.queue := rfl
@[simp] theorem State.call_inputs (s : State) (c : Call) : (s.call c).inputs = s.inputs := rfl
@[simp] theorem State.call_emitted (s : State) (c : Call) : (s.call c).emitted = s.emitted := rfl
@[simp] theorem State.call_calls (s : State) (c : Call) : (s.call c).calls = c :: s.calls := rfl
@[simp] theorem State.call_result (s : State) (c : Call) : (s.call c).result = s.result := rfl

@[simp] theorem State.returning_clk (s : State) (r : Result) : (s.returning r).clk = s.clk := rfl
@[simp] theorem State.returning_sched (s : State) (r : Result) : (s.returning r).sched = s.sched := rfl
@[simp] theorem State.returning_pend (s : State) (r : Result) : (s.returning r).pend = s.pend := rfl
@[simp] theorem State.returning_dma (s : State) (r : Result) : (s.returning r).dma = s.dma := rfl
@[simp] theorem State.returning_sasi (s : State) (r : Result) : (s.returning r).sasi = s.sasi := rfl
@[simp] theorem State.returning_fdd (s : State) (r : Result) : (s.returning r).fdd = s.fdd := rfl
@[simp] theorem State.returning_rtc (s : State) (r : Result) : (s.returning r).rtc = s.rtc := rfl
@[simp] theorem State.returning_sramWe (s : State) (r : Result) : (s.returning r).sramWe = s.sramWe := rfl
@[simp] theorem State.returning_sram (s : State) (r : Result) : (s.returning r).sram = s.sram := rfl
@[simp] theorem State.returning_ram (s : State) (r : Result) : (s.returning r).ram = s.ram := rfl
@[simp] theorem State.returning_store (s : State) (r : Result) : (s.returning r).store = s.store := rfl
@[simp] theorem State.returning_cfg (s : State) (r : Result) : (s.returning r).cfg = s.cfg := rfl
@[simp] theorem State.returning_alive (s : State) (r : Result) : (s.returning r).alive = s.alive := rfl
@[simp] theorem State.returning_queue (s : State) (r : Result) : (s.returning r).queue = s.queue := rfl
@[simp] theorem State.returning_inputs (s : State) (r : Result) : (s.returning r).inputs = s.inputs := rfl
@[simp] theorem State.returning_emitted (s : State) (r : Result) : (s.returning r).emitted = s.emitted := rfl
@[simp] theorem State.returning_calls (s : State) (r : Result) : (s.returning r).calls = s.calls := rfl
@[simp] theorem State.returning_result (s : State) (r : Result) : (s.returning r).result = r := rfl

@[simp] theorem State.drew_clk (s : State) (i : Inputs) : (s.drew i).clk = s.clk := rfl
@[simp] theorem State.drew_sched (s : State) (i : Inputs) : (s.drew i).sched = s.sched := rfl
@[simp] theorem State.drew_pend (s : State) (i : Inputs) : (s.drew i).pend = s.pend := rfl
@[simp] theorem State.drew_dma (s : State) (i : Inputs) : (s.drew i).dma = s.dma := rfl
@[simp] theorem State.drew_sasi (s : State) (i : Inputs) : (s.drew i).sasi = s.sasi := rfl
@[simp] theorem State.drew_fdd (s : State) (i : Inputs) : (s.drew i).fdd = s.fdd := rfl
@[simp] theorem State.drew_rtc (s : State) (i : Inputs) : (s.drew i).rtc = s.rtc := rfl
@[simp] theorem State.drew_sramWe (s : State) (i : Inputs) : (s.drew i).sramWe = s.sramWe := rfl
@[simp] theorem State.drew_sram (s : State) (i : Inputs) : (s.drew i).sram = s.sram := rfl
@[simp] theorem State.drew_ram (s : State) (i : Inputs) : (s.drew i).ram = s.ram := rfl
@[simp] theorem State.drew_store (s : State) (i : Inputs) : (s.drew i).store = s.store := rfl
@[simp] theorem State.drew_cfg (s : State) (i : Inputs) : (s.drew i).cfg = s.cfg := rfl
@[simp] theorem State.drew_alive (s : State) (i : Inputs) : (s.drew i).alive = s.alive := rfl
@[simp] theorem State.drew_queue (s : State) (i : Inputs) : (s.drew i).queue = s.queue := rfl
@[simp] theorem State.drew_inputs (s : State) (i : Inputs) : (s.drew i).inputs = { i with drawn := i.drawn + 1 } := rfl
@[simp] theorem State.drew_emitted (s : State) (i : Inputs) : (s.drew i).emitted = s.emitted := rfl
@[simp] theorem State.drew_calls (s : State) (i : Inputs) : (s.drew i).calls = s.calls := rfl
@[simp] theorem State.drew_result (s : State) (i : Inputs) : (s.drew i).result = s.result := rfl

@[simp] theorem State.requestSrc_clk (s : State) (src : Src) : (s.requestSrc src).clk = s.clk := rfl
@[simp] theorem State.requestSrc_sched (s : State) (src : Src) : (s.requestSrc src).sched = s.sched := rfl
@[simp] theorem State.requestSrc_pend (s : State) (src : Src) : (s.requestSrc src).pend = setPending s.pend src := rfl
@[simp] theorem State.requestSrc_dma (s : State) (src : Src) : (s.requestSrc src).dma = s.dma := rfl
@[simp] theorem State.requestSrc_sasi (s : State) (src : Src) : (s.requestSrc src).sasi = s.sasi := rfl
@[simp] theorem State.requestSrc_fdd (s : State) (src : Src) : (s.requestSrc src).fdd = s.fdd := rfl
@[simp] theorem State.requestSrc_rtc (s : State) (src : Src) : (s.requestSrc src).rtc = s.rtc := rfl
@[simp] theorem State.requestSrc_sramWe (s : State) (src : Src) : (s.requestSrc src).sramWe = s.sramWe := rfl
@[simp] theorem State.requestSrc_sram (s : State) (src : Src) : (s.requestSrc src).sram = s.sram := rfl
@[simp] theorem State.requestSrc_ram (s : State) (src : Src) : (s.requestSrc src).ram = s.ram := rfl
@[simp] theorem State.requestSrc_store (s : State) (src : Src) : (s.requestSrc src).store = s.store := rfl
@[simp] theorem State.requestSrc_cfg (s : State) (src : Src) : (s.requestSrc src).cfg = s.cfg := rfl
@[simp] theorem State.requestSrc_alive (s : State) (src : Src) : (s.requestSrc src).alive = s.alive := rfl
@[simp] theorem State.requestSrc_queue (s : State) (src : Src) : (s.requestSrc src).queue = s.queue := rfl
@[simp] theorem State.requestSrc_inputs (s : State) (src : Src) : (s.requestSrc src).inputs = s.inputs := rfl
@[simp] theorem State.requestSrc_emitted (s : State) (src : Src) : (s.requestSrc src).emitted = s.emitted := rfl
@[simp] theorem State.requestSrc_calls (s : State) (src : Src) : (s.requestSrc src).calls = s.calls := rfl
@[simp] theorem State.requestSrc_result (s : State) (src : Src) : (s.requestSrc src).result = s.result := rfl

@[simp] theorem State.withSasi_clk (s : State) (d : Sasi) : (s.withSasi d).clk = s.clk := rfl
@[simp] theorem State.withSasi_sched (s : State) (d : Sasi) : (s.withSasi d).sched = s.sched := rfl
@[simp] theorem State.withSasi_pend (s : State) (d : Sasi) : (s.withSasi d).pend = s.pend := rfl
@[simp] theorem State.withSasi_dma (s : State) (d : Sasi) : (s.withSasi d).dma = s.dma := rfl
@[simp] theorem State.withSasi_sasi (s : State) (d : Sasi) : (s.withSasi d).sasi = d := rfl
@[simp] theorem State.withSasi_fdd (s : State) (d : Sasi) : (s.withSasi d).fdd = s.fdd := rfl
@[simp] theorem State.withSasi_rtc (s : State) (d : Sasi) : (s.withSasi d).rtc = s.rtc := rfl
@[simp] theorem State.withSasi_sramWe (s : State) (d : Sasi) : (s.withSasi d).sramWe = s.sramWe := rfl
@[simp] theorem State.withSasi_sram (s : State) (d : Sasi) : (s.withSasi d).sram = s.sram := rfl
@[simp] theorem State.withSasi_ram (s : State) (d : Sasi) : (s.withSasi d).ram = s.ram := rfl
@[simp] theorem State.withSasi_store (s : State) (d : Sasi) : (s.withSasi d).store = s.store := rfl
@[simp] theorem State.withSasi_cfg (s : State) (d : Sasi) : (s.withSasi d).cfg = s.cfg := rfl
@[simp] theorem State.withSasi_alive (s : State) (d : Sasi) : (s.withSasi d).alive = s.alive := rfl
@[simp] theorem State.withSasi_queue (s : State) (d : Sasi) : (s.withSasi d).queue = s.queue := rfl
@[simp] theorem State.withSasi_inputs (s : State) (d : Sasi) : (s.withSasi d).inputs = s.inputs := rfl
@[simp] theorem State.withSasi_emitted (s : State) (d : Sasi) : (s.withSasi d).emitted = s.emitted := rfl
@[simp] theorem State.withSasi_calls (s : State) (d : Sasi) : (s.withSasi d).calls = s.calls := rfl
@[simp] theorem State.withSasi_result (s : State) (d : Sasi) : (s.withSasi d).result = s.result := rfl

@[simp] theorem State.withChannel_clk (s : State) (c : Fin 3) (ch : DmaChannel) : (s.withChannel c ch).clk = s.clk := rfl
@[simp] theorem State.withChannel_sched (s : State) (c : Fin 3) (ch : DmaChannel) : (s.withChannel c ch).sched = s.sched := rfl
@[simp] theorem State.withChannel_pend (s : State) (c : Fin 3) (ch : DmaChannel) : (s.withChannel c ch).pend = s.pend := rfl
@[simp] theorem State.withChannel_dma (s : State) (c : Fin 3) (ch : DmaChannel) : (s.withChannel c ch).dma = s.dma.set c.val ch c.isLt := rfl
@[simp] theorem State.withChannel_sasi (s : State) (c : Fin 3) (ch : DmaChannel) : (s.withChannel c ch).sasi = s.sasi := rfl
@[simp] theorem State.withChannel_fdd (s : State) (c : Fin 3) (ch : DmaChannel) : (s.withChannel c ch).fdd = s.fdd := rfl
@[simp] theorem State.withChannel_rtc (s : State) (c : Fin 3) (ch : DmaChannel) : (s.withChannel c ch).rtc = s.rtc := rfl
@[simp] theorem State.withChannel_sramWe (s : State) (c : Fin 3) (ch : DmaChannel) : (s.withChannel c ch).sramWe = s.sramWe := rfl
@[simp] theorem State.withChannel_sram (s : State) (c : Fin 3) (ch : DmaChannel) : (s.withChannel c ch).sram = s.sram := rfl
@[simp] theorem State.withChannel_ram (s : State) (c : Fin 3) (ch : DmaChannel) : (s.withChannel c ch).ram = s.ram := rfl
@[simp] theorem State.withChannel_store (s : State) (c : Fin 3) (ch : DmaChannel) : (s.withChannel c ch).store = s.store := rfl
@[simp] theorem State.withChannel_cfg (s : State) (c : Fin 3) (ch : DmaChannel) : (s.withChannel c ch).cfg = s.cfg := rfl
@[simp] theorem State.withChannel_alive (s : State) (c : Fin 3) (ch : DmaChannel) : (s.withChannel c ch).alive = s.alive := rfl
@[simp] theorem State.withChannel_queue (s : State) (c : Fin 3) (ch : DmaChannel) : (s.withChannel c ch).queue = s.queue := rfl
@[simp] theorem State.withChannel_inputs (s : State) (c : Fin 3) (ch : DmaChannel) : (s.withChannel c ch).inputs = s.inputs := rfl
@[simp] theorem State.withChannel_emitted (s : State) (c : Fin 3) (ch : DmaChannel) : (s.withChannel c ch).emitted = s.emitted := rfl
@[simp] theorem State.withChannel_calls (s : State) (c : Fin 3) (ch : DmaChannel) : (s.withChannel c ch).calls = s.calls := rfl
@[simp] theorem State.withChannel_result (s : State) (c : Fin 3) (ch : DmaChannel) : (s.withChannel c ch).result = s.result := rfl

@[simp] theorem State.modifyDrive_clk (s : State) (d : Nat) (f : Fdd → Fdd) : (s.modifyDrive d f).clk = s.clk := rfl
@[simp] theorem State.modifyDrive_sched (s : State) (d : Nat) (f : Fdd → Fdd) : (s.modifyDrive d f).sched = s.sched := rfl
@[simp] theorem State.modifyDrive_pend (s : State) (d : Nat) (f : Fdd → Fdd) : (s.modifyDrive d f).pend = s.pend := rfl
@[simp] theorem State.modifyDrive_dma (s : State) (d : Nat) (f : Fdd → Fdd) : (s.modifyDrive d f).dma = s.dma := rfl
@[simp] theorem State.modifyDrive_sasi (s : State) (d : Nat) (f : Fdd → Fdd) : (s.modifyDrive d f).sasi = s.sasi := rfl
@[simp] theorem State.modifyDrive_fdd (s : State) (d : Nat) (f : Fdd → Fdd) : (s.modifyDrive d f).fdd = s.fdd.modify d f := rfl
@[simp] theorem State.modifyDrive_rtc (s : State) (d : Nat) (f : Fdd → Fdd) : (s.modifyDrive d f).rtc = s.rtc := rfl
@[simp] theorem State.modifyDrive_sramWe (s : State) (d : Nat) (f : Fdd → Fdd) : (s.modifyDrive d f).sramWe = s.sramWe := rfl
@[simp] theorem State.modifyDrive_sram (s : State) (d : Nat) (f : Fdd → Fdd) : (s.modifyDrive d f).sram = s.sram := rfl
@[simp] theorem State.modifyDrive_ram (s : State) (d : Nat) (f : Fdd → Fdd) : (s.modifyDrive d f).ram = s.ram := rfl
@[simp] theorem State.modifyDrive_store (s : State) (d : Nat) (f : Fdd → Fdd) : (s.modifyDrive d f).store = s.store := rfl
@[simp] theorem State.modifyDrive_cfg (s : State) (d : Nat) (f : Fdd → Fdd) : (s.modifyDrive d f).cfg = s.cfg := rfl
@[simp] theorem State.modifyDrive_alive (s : State) (d : Nat) (f : Fdd → Fdd) : (s.modifyDrive d f).alive = s.alive := rfl
@[simp] theorem State.modifyDrive_queue (s : State) (d : Nat) (f : Fdd → Fdd) : (s.modifyDrive d f).queue = s.queue := rfl
@[simp] theorem State.modifyDrive_inputs (s : State) (d : Nat) (f : Fdd → Fdd) : (s.modifyDrive d f).inputs = s.inputs := rfl
@[simp] theorem State.modifyDrive_emitted (s : State) (d : Nat) (f : Fdd → Fdd) : (s.modifyDrive d f).emitted = s.emitted := rfl
@[simp] theorem State.modifyDrive_calls (s : State) (d : Nat) (f : Fdd → Fdd) : (s.modifyDrive d f).calls = s.calls := rfl
@[simp] theorem State.modifyDrive_result (s : State) (d : Nat) (f : Fdd → Fdd) : (s.modifyDrive d f).result = s.result := rfl

@[simp] theorem State.withCredit_clk (s : State) (c : Fin 3) (n : Nat) : (s.withCredit c n).clk = s.clk := rfl
@[simp] theorem State.withCredit_sched (s : State) (c : Fin 3) (n : Nat) : (s.withCredit c n).sched = s.sched := rfl
@[simp] theorem State.withCredit_pend (s : State) (c : Fin 3) (n : Nat) : (s.withCredit c n).pend = s.pend := rfl
@[simp] theorem State.withCredit_dma (s : State) (c : Fin 3) (n : Nat) : (s.withCredit c n).dma = s.dma.set c.val { s.channel c with credit := BitVec.ofNat 32 n } c.isLt := rfl
@[simp] theorem State.withCredit_sasi (s : State) (c : Fin 3) (n : Nat) : (s.withCredit c n).sasi = s.sasi := rfl
@[simp] theorem State.withCredit_fdd (s : State) (c : Fin 3) (n : Nat) : (s.withCredit c n).fdd = s.fdd := rfl
@[simp] theorem State.withCredit_rtc (s : State) (c : Fin 3) (n : Nat) : (s.withCredit c n).rtc = s.rtc := rfl
@[simp] theorem State.withCredit_sramWe (s : State) (c : Fin 3) (n : Nat) : (s.withCredit c n).sramWe = s.sramWe := rfl
@[simp] theorem State.withCredit_sram (s : State) (c : Fin 3) (n : Nat) : (s.withCredit c n).sram = s.sram := rfl
@[simp] theorem State.withCredit_ram (s : State) (c : Fin 3) (n : Nat) : (s.withCredit c n).ram = s.ram := rfl
@[simp] theorem State.withCredit_store (s : State) (c : Fin 3) (n : Nat) : (s.withCredit c n).store = s.store := rfl
@[simp] theorem State.withCredit_cfg (s : State) (c : Fin 3) (n : Nat) : (s.withCredit c n).cfg = s.cfg := rfl
@[simp] theorem State.withCredit_alive (s : State) (c : Fin 3) (n : Nat) : (s.withCredit c n).alive = s.alive := rfl
@[simp] theorem State.withCredit_queue (s : State) (c : Fin 3) (n : Nat) : (s.withCredit c n).queue = s.queue := rfl
@[simp] theorem State.withCredit_inputs (s : State) (c : Fin 3) (n : Nat) : (s.withCredit c n).inputs = s.inputs := rfl
@[simp] theorem State.withCredit_emitted (s : State) (c : Fin 3) (n : Nat) : (s.withCredit c n).emitted = s.emitted := rfl
@[simp] theorem State.withCredit_calls (s : State) (c : Fin 3) (n : Nat) : (s.withCredit c n).calls = s.calls := rfl
@[simp] theorem State.withCredit_result (s : State) (c : Fin 3) (n : Nat) : (s.withCredit c n).result = s.result := rfl

@[simp] theorem State.stepChannel_clk (s : State) (c : Fin 3) : (s.stepChannel c).clk = s.clk := rfl
@[simp] theorem State.stepChannel_sched (s : State) (c : Fin 3) : (s.stepChannel c).sched = s.sched := rfl
@[simp] theorem State.stepChannel_pend (s : State) (c : Fin 3) : (s.stepChannel c).pend = s.pend := rfl
@[simp] theorem State.stepChannel_dma (s : State) (c : Fin 3) : (s.stepChannel c).dma = s.dma.set c.val (s.channel c).stepped c.isLt := rfl
@[simp] theorem State.stepChannel_sasi (s : State) (c : Fin 3) : (s.stepChannel c).sasi = s.sasi := rfl
@[simp] theorem State.stepChannel_fdd (s : State) (c : Fin 3) : (s.stepChannel c).fdd = s.fdd := rfl
@[simp] theorem State.stepChannel_rtc (s : State) (c : Fin 3) : (s.stepChannel c).rtc = s.rtc := rfl
@[simp] theorem State.stepChannel_sramWe (s : State) (c : Fin 3) : (s.stepChannel c).sramWe = s.sramWe := rfl
@[simp] theorem State.stepChannel_sram (s : State) (c : Fin 3) : (s.stepChannel c).sram = s.sram := rfl
@[simp] theorem State.stepChannel_ram (s : State) (c : Fin 3) : (s.stepChannel c).ram = s.ram := rfl
@[simp] theorem State.stepChannel_store (s : State) (c : Fin 3) : (s.stepChannel c).store = s.store := rfl
@[simp] theorem State.stepChannel_cfg (s : State) (c : Fin 3) : (s.stepChannel c).cfg = s.cfg := rfl
@[simp] theorem State.stepChannel_alive (s : State) (c : Fin 3) : (s.stepChannel c).alive = s.alive := rfl
@[simp] theorem State.stepChannel_queue (s : State) (c : Fin 3) : (s.stepChannel c).queue = s.queue := rfl
@[simp] theorem State.stepChannel_inputs (s : State) (c : Fin 3) : (s.stepChannel c).inputs = s.inputs := rfl
@[simp] theorem State.stepChannel_emitted (s : State) (c : Fin 3) : (s.stepChannel c).emitted = s.emitted := rfl
@[simp] theorem State.stepChannel_calls (s : State) (c : Fin 3) : (s.stepChannel c).calls = s.calls := rfl
@[simp] theorem State.stepChannel_result (s : State) (c : Fin 3) : (s.stepChannel c).result = s.result := rfl

@[simp] theorem State.account_sched (s : State) (consumed : Nat) : (s.account consumed).sched = s.sched := rfl
@[simp] theorem State.account_pend (s : State) (consumed : Nat) : (s.account consumed).pend = s.pend := rfl
@[simp] theorem State.account_dma (s : State) (consumed : Nat) : (s.account consumed).dma = s.dma := rfl
@[simp] theorem State.account_sasi (s : State) (consumed : Nat) : (s.account consumed).sasi = s.sasi := rfl
@[simp] theorem State.account_fdd (s : State) (consumed : Nat) : (s.account consumed).fdd = s.fdd := rfl
@[simp] theorem State.account_rtc (s : State) (consumed : Nat) : (s.account consumed).rtc = s.rtc := rfl
@[simp] theorem State.account_sramWe (s : State) (consumed : Nat) : (s.account consumed).sramWe = s.sramWe := rfl
@[simp] theorem State.account_sram (s : State) (consumed : Nat) : (s.account consumed).sram = s.sram := rfl
@[simp] theorem State.account_ram (s : State) (consumed : Nat) : (s.account consumed).ram = s.ram := rfl
@[simp] theorem State.account_store (s : State) (consumed : Nat) : (s.account consumed).store = s.store := rfl
@[simp] theorem State.account_cfg (s : State) (consumed : Nat) : (s.account consumed).cfg = s.cfg := rfl
@[simp] theorem State.account_alive (s : State) (consumed : Nat) : (s.account consumed).alive = s.alive := rfl
@[simp] theorem State.account_queue (s : State) (consumed : Nat) : (s.account consumed).queue = s.queue := rfl
@[simp] theorem State.account_inputs (s : State) (consumed : Nat) : (s.account consumed).inputs = s.inputs := rfl
@[simp] theorem State.account_emitted (s : State) (consumed : Nat) : (s.account consumed).emitted = s.emitted := rfl
@[simp] theorem State.account_calls (s : State) (consumed : Nat) : (s.account consumed).calls = s.calls := rfl
@[simp] theorem State.account_result (s : State) (consumed : Nat) : (s.account consumed).result = s.result := rfl

@[simp] theorem State.sliceOrEnd_clk (s : State) : (s.sliceOrEnd).clk = s.clk := rfl
@[simp] theorem State.sliceOrEnd_sched (s : State) : (s.sliceOrEnd).sched = { s.sched with seq := if s.clk.count.toNat < s.clk.next.toNat then .slice else .lineEnd } := rfl
@[simp] theorem State.sliceOrEnd_pend (s : State) : (s.sliceOrEnd).pend = s.pend := rfl
@[simp] theorem State.sliceOrEnd_dma (s : State) : (s.sliceOrEnd).dma = s.dma := rfl
@[simp] theorem State.sliceOrEnd_sasi (s : State) : (s.sliceOrEnd).sasi = s.sasi := rfl
@[simp] theorem State.sliceOrEnd_fdd (s : State) : (s.sliceOrEnd).fdd = s.fdd := rfl
@[simp] theorem State.sliceOrEnd_rtc (s : State) : (s.sliceOrEnd).rtc = s.rtc := rfl
@[simp] theorem State.sliceOrEnd_sramWe (s : State) : (s.sliceOrEnd).sramWe = s.sramWe := rfl
@[simp] theorem State.sliceOrEnd_sram (s : State) : (s.sliceOrEnd).sram = s.sram := rfl
@[simp] theorem State.sliceOrEnd_ram (s : State) : (s.sliceOrEnd).ram = s.ram := rfl
@[simp] theorem State.sliceOrEnd_store (s : State) : (s.sliceOrEnd).store = s.store := rfl
@[simp] theorem State.sliceOrEnd_cfg (s : State) : (s.sliceOrEnd).cfg = s.cfg := rfl
@[simp] theorem State.sliceOrEnd_alive (s : State) : (s.sliceOrEnd).alive = s.alive := rfl
@[simp] theorem State.sliceOrEnd_queue (s : State) : (s.sliceOrEnd).queue = s.queue := rfl
@[simp] theorem State.sliceOrEnd_inputs (s : State) : (s.sliceOrEnd).inputs = s.inputs := rfl
@[simp] theorem State.sliceOrEnd_emitted (s : State) : (s.sliceOrEnd).emitted = s.emitted := rfl
@[simp] theorem State.sliceOrEnd_calls (s : State) : (s.sliceOrEnd).calls = s.calls := rfl
@[simp] theorem State.sliceOrEnd_result (s : State) : (s.sliceOrEnd).result = s.result := rfl

@[simp] theorem State.fastclrRequest_clk (s : State) : (s.fastclrRequest).clk = s.clk := rfl
@[simp] theorem State.fastclrRequest_sched (s : State) : (s.fastclrRequest).sched = { s.sched with fastclrPending := true } := rfl
@[simp] theorem State.fastclrRequest_pend (s : State) : (s.fastclrRequest).pend = s.pend := rfl
@[simp] theorem State.fastclrRequest_dma (s : State) : (s.fastclrRequest).dma = s.dma := rfl
@[simp] theorem State.fastclrRequest_sasi (s : State) : (s.fastclrRequest).sasi = s.sasi := rfl
@[simp] theorem State.fastclrRequest_fdd (s : State) : (s.fastclrRequest).fdd = s.fdd := rfl
@[simp] theorem State.fastclrRequest_rtc (s : State) : (s.fastclrRequest).rtc = s.rtc := rfl
@[simp] theorem State.fastclrRequest_sramWe (s : State) : (s.fastclrRequest).sramWe = s.sramWe := rfl
@[simp] theorem State.fastclrRequest_sram (s : State) : (s.fastclrRequest).sram = s.sram := rfl
@[simp] theorem State.fastclrRequest_ram (s : State) : (s.fastclrRequest).ram = s.ram := rfl
@[simp] theorem State.fastclrRequest_store (s : State) : (s.fastclrRequest).store = s.store := rfl
@[simp] theorem State.fastclrRequest_cfg (s : State) : (s.fastclrRequest).cfg = s.cfg := rfl
@[simp] theorem State.fastclrRequest_alive (s : State) : (s.fastclrRequest).alive = s.alive := rfl
@[simp] theorem State.fastclrRequest_queue (s : State) : (s.fastclrRequest).queue = s.queue := rfl
@[simp] theorem State.fastclrRequest_inputs (s : State) : (s.fastclrRequest).inputs = s.inputs := rfl
@[simp] theorem State.fastclrRequest_emitted (s : State) : (s.fastclrRequest).emitted = s.emitted := rfl
@[simp] theorem State.fastclrRequest_calls (s : State) : (s.fastclrRequest).calls = s.calls := rfl
@[simp] theorem State.fastclrRequest_result (s : State) : (s.fastclrRequest).result = s.result := rfl

end Sys2Proof.Machine
end

