-- ==== Sys2Proof/Laws/Memory.lean ====
section
/-! SUPPORT. The laws of memories and of the backing store: what a read after a write gives, and that every
operation keeps the canonical form. -/

namespace Sys2Proof.Machine

theorem Memory.wfFrom_cons {u : Byte} {size lo a : Nat} {v : Byte} {m : Memory} :
    Memory.wfFrom u size lo ((a, v) :: m) = true ↔
      (lo ≤ a ∧ a < size) ∧ v ≠ u ∧ Memory.wfFrom u size (a + 1) m = true := by
  simp [Memory.wfFrom, and_assoc]

theorem Memory.wfFrom_weaken {u : Byte} {size lo lo' : Nat} {m : Memory} (hl : lo' ≤ lo)
    (h : Memory.wfFrom u size lo m = true) : Memory.wfFrom u size lo' m = true := by
  cases m with
  | nil => rfl
  | cons p m =>
    obtain ⟨a, v⟩ := p
    rw [Memory.wfFrom_cons] at h ⊢
    exact ⟨⟨by omega, h.1.2⟩, h.2⟩

/-- Below its first listed address a memory reads as unlisted. -/
theorem Memory.read_below {size lo : Nat} {m : Memory} (h : Memory.wfFrom Memory.unlisted size lo m = true)
    {a : Nat} (ha : a < lo) : Memory.read m a = Memory.unlisted := by
  induction m generalizing lo with
  | nil => rfl
  | cons p m ih =>
    obtain ⟨b, v⟩ := p
    rw [Memory.wfFrom_cons] at h
    rw [Memory.read, if_neg (by omega)]
    exact ih h.2.2 (by omega)

/-- At and above its size a memory reads as unlisted. -/
theorem Memory.read_beyond {size lo : Nat} {m : Memory} (h : Memory.wfFrom Memory.unlisted size lo m = true)
    {a : Nat} (ha : size ≤ a) : Memory.read m a = Memory.unlisted := by
  induction m generalizing lo with
  | nil => rfl
  | cons p m ih =>
    obtain ⟨b, v⟩ := p
    rw [Memory.wfFrom_cons] at h
    rw [Memory.read, if_neg (by omega)]
    exact ih h.2.2

theorem Memory.entry_wfFrom {size lo a : Nat} {v : Byte} {m : Memory} (hl : lo ≤ a) (hs : a < size)
    (h : Memory.wfFrom Memory.unlisted size (a + 1) m = true) :
    Memory.wfFrom Memory.unlisted size lo (Memory.entry a v m) = true := by
  unfold Memory.entry
  split
  · exact Memory.wfFrom_weaken (by omega) h
  · exact Memory.wfFrom_cons.2 ⟨⟨hl, hs⟩, ‹_›, h⟩

theorem Memory.read_entry {size a : Nat} {v : Byte} {m : Memory}
    (h : Memory.wfFrom Memory.unlisted size (a + 1) m = true) (b : Nat) :
    Memory.read (Memory.entry a v m) b = if b = a then v else Memory.read m b := by
  unfold Memory.entry
  split
  · split
    · subst_vars; exact Memory.read_below h (by omega)
    · rfl
  · simp [Memory.read]

/-- A write keeps the canonical form. -/
theorem Memory.write_wfFrom {size lo a : Nat} {v : Byte} {m : Memory} (hl : lo ≤ a) (hs : a < size)
    (h : Memory.wfFrom Memory.unlisted size lo m = true) :
    Memory.wfFrom Memory.unlisted size lo (Memory.write m a v) = true := by
  induction m generalizing lo with
  | nil => exact Memory.entry_wfFrom hl hs rfl
  | cons p m ih =>
    obtain ⟨b, w⟩ := p
    have h' := Memory.wfFrom_cons.1 h
    rw [Memory.write]
    split
    · exact Memory.entry_wfFrom hl hs (Memory.wfFrom_cons.2 ⟨⟨by omega, h'.1.2⟩, h'.2⟩)
    · split
      · subst_vars; exact Memory.entry_wfFrom hl hs h'.2.2
      · exact Memory.wfFrom_cons.2 ⟨h'.1, h'.2.1, ih (by omega) h'.2.2⟩

/-- What every address reads as after a write (20_memory R48). -/
theorem Memory.read_write {size lo : Nat} {m : Memory} (h : Memory.wfFrom Memory.unlisted size lo m = true)
    (a : Nat) (v : Byte) (b : Nat) :
    Memory.read (Memory.write m a v) b = if b = a then v else Memory.read m b := by
  induction m generalizing lo with
  | nil => exact Memory.read_entry (size := 0) rfl b
  | cons p m ih =>
    obtain ⟨c, w⟩ := p
    have h' := Memory.wfFrom_cons.1 h
    rw [Memory.write]
    split
    · exact Memory.read_entry (size := size) (Memory.wfFrom_cons.2 ⟨⟨by omega, h'.1.2⟩, h'.2⟩) b
    · split
      · subst_vars
        rw [Memory.read_entry h'.2.2, Memory.read]
        split <;> rfl
      · rw [Memory.read, Memory.read, ih h'.2.2]
        split <;> split <;> first | rfl | omega

/-- Two memories in the canonical form that read alike are equal. -/
theorem Memory.ext_of_read {size lo : Nat} {m n : Memory} (hm : Memory.wfFrom Memory.unlisted size lo m = true)
    (hn : Memory.wfFrom Memory.unlisted size lo n = true) (h : ∀ a, Memory.read m a = Memory.read n a) :
    m = n := by
  induction m generalizing n lo with
  | nil =>
    cases n with
    | nil => rfl
    | cons q n =>
      obtain ⟨b, w⟩ := q
      have := h b
      simp only [Memory.read, if_true] at this
      exact absurd this.symm (Memory.wfFrom_cons.1 hn).2.1
  | cons p m ih =>
    obtain ⟨a, v⟩ := p
    have hm' := Memory.wfFrom_cons.1 hm
    cases n with
    | nil =>
      have := h a
      simp only [Memory.read, if_true] at this
      exact absurd this hm'.2.1
    | cons q n =>
      obtain ⟨b, w⟩ := q
      have hn' := Memory.wfFrom_cons.1 hn
      have hab : a = b := by
        rcases Nat.lt_trichotomy a b with hlt | heq | hlt
        · have := h a
          rw [Memory.read, if_pos rfl, Memory.read, if_neg (by omega),
            Memory.read_below hn'.2.2 (by omega)] at this
          exact absurd this hm'.2.1
        · exact heq
        · have := h b
          rw [Memory.read, if_neg (by omega), Memory.read, if_pos rfl,
            Memory.read_below hm'.2.2 (by omega)] at this
          exact absurd this.symm hn'.2.1
      subst hab
      have hv : v = w := by simpa [Memory.read] using h a
      subst hv
      have hmn : m = n := by
        refine ih hm'.2.2 hn'.2.2 fun c => ?_
        by_cases hc : c = a
        · rw [Memory.read_below hm'.2.2 (by omega), Memory.read_below hn'.2.2 (by omega)]
        · simpa [Memory.read, hc] using h c
      rw [hmn]

theorem Memory.write_wf {size a : Nat} {v : Byte} {m : Memory} (hs : a < size) (h : Memory.wf size m = true) :
    Memory.wf size (Memory.write m a v) = true := Memory.write_wfFrom (Nat.zero_le _) hs h

/-- Writing a range inside a memory keeps the canonical form. -/
theorem Memory.writeRange_wf {size off : Nat} {bs : List Byte} {m : Memory} (hs : off + bs.length ≤ size)
    (h : Memory.wf size m = true) : Memory.wf size (Memory.writeRange m off bs) = true := by
  induction bs generalizing m off with
  | nil => exact h
  | cons b bs ih =>
    simp only [List.length_cons] at hs
    exact ih (by omega) (Memory.write_wf (by omega) h)

/-- What every address reads as after a range is written (44_sasi R184). -/
theorem Memory.read_writeRange {size off : Nat} {bs : List Byte} {m : Memory} (hs : off + bs.length ≤ size)
    (h : Memory.wf size m = true) (a : Nat) :
    Memory.read (Memory.writeRange m off bs) a =
      if off ≤ a ∧ a < off + bs.length then bs.getD (a - off) 0 else Memory.read m a := by
  induction bs generalizing m off with
  | nil => rw [if_neg (by simp), Memory.writeRange]
  | cons b bs ih =>
    simp only [List.length_cons] at hs ⊢
    rw [Memory.writeRange, ih (by omega) (Memory.write_wf (by omega) h), Memory.read_write h]
    by_cases h1 : a = off
    · subst h1
      rw [if_neg (by omega), if_pos rfl, if_pos (by omega)]
      simp
    · by_cases h2 : off + 1 ≤ a ∧ a < off + 1 + bs.length
      · rw [if_pos h2, if_pos (by omega)]
        obtain ⟨k, hk⟩ : ∃ k, a - off = k + 1 := ⟨a - off - 1, by omega⟩
        rw [hk, show a - (off + 1) = k by omega]
        simp
      · rw [if_neg h2, if_neg h1, if_neg (by omega)]

theorem Memory.ofBytes_wfFrom {size : Nat} (bs : List Byte) (off : Nat) (hs : off + bs.length ≤ size) :
    Memory.wfFrom Memory.unlisted size off (Memory.ofBytes off bs) = true := by
  induction bs generalizing off with
  | nil => rfl
  | cons b bs ih =>
    simp only [List.length_cons] at hs
    exact Memory.entry_wfFrom (Nat.le_refl _) (by omega) (ih (off + 1) (by omega))

/-- The memory of a list of bytes is in the canonical form. -/
theorem Memory.ofBytes_wf {size : Nat} {bs : List Byte} (hs : bs.length ≤ size) :
    Memory.wf size (Memory.ofBytes 0 bs) = true := Memory.ofBytes_wfFrom bs 0 (by omega)

theorem Memory.read_ofBytes (bs : List Byte) (off a : Nat) :
    Memory.read (Memory.ofBytes off bs) a =
      if off ≤ a ∧ a < off + bs.length then bs.getD (a - off) 0 else Memory.unlisted := by
  induction bs generalizing off with
  | nil => rw [if_neg (by simp)]; rfl
  | cons b bs ih =>
    rw [Memory.ofBytes,
      Memory.read_entry (Memory.ofBytes_wfFrom bs (off + 1) (Nat.le_refl _)), ih]
    simp only [List.length_cons]
    by_cases h1 : a = off
    · subst h1
      rw [if_pos rfl, if_pos (by omega)]
      simp
    · by_cases h2 : off + 1 ≤ a ∧ a < off + 1 + bs.length
      · rw [if_neg h1, if_pos h2, if_pos (by omega)]
        obtain ⟨k, hk⟩ : ∃ k, a - off = k + 1 := ⟨a - off - 1, by omega⟩
        rw [hk, show a - (off + 1) = k by omega]
        simp
      · rw [if_neg h1, if_neg h2, if_neg (by omega)]

@[simp] theorem Memory.readRange_length (m : Memory) (off n : Nat) : (Memory.readRange m off n).length = n := by
  simp [Memory.readRange]

theorem Memory.readRange_getD (m : Memory) (off n i : Nat) (h : i < n) (d : Byte) :
    (Memory.readRange m off n).getD i d = Memory.read m (off + i) := by
  simp [Memory.readRange, List.getD_eq_getElem?_getD, h]

/-- A memory read out whole and put back is the same memory (46_snapshot R233). -/
theorem Memory.ofBytes_readRange {size : Nat} {m : Memory} (h : Memory.wf size m = true) :
    Memory.ofBytes 0 (Memory.readRange m 0 size) = m := by
  refine Memory.ext_of_read (Memory.ofBytes_wf (by simp)) h fun a => ?_
  rw [Memory.read_ofBytes]
  simp only [Memory.readRange_length]
  by_cases ha : a < size
  · rw [if_pos (by omega), Memory.readRange_getD m 0 size (a - 0) (by omega)]
    simp
  · rw [if_neg (by omega), Memory.read_beyond h (by omega)]

/-! ### The backing store -/

theorem findImage_setImage (st : List (Handle × Image)) (h k : Handle) (im im' : Image)
    (hk : findImage st h = some im) :
    findImage (setImage st h im') k = if k = h then some im' else findImage st k := by
  induction st with
  | nil => simp [findImage] at hk
  | cons p st ih =>
    obtain ⟨q, jm⟩ := p
    rw [findImage] at hk
    rw [setImage]
    by_cases hq : q = h
    · subst hq
      rw [if_pos rfl, findImage, findImage]
      by_cases hkq : k = q
      · subst hkq; rw [if_pos rfl, if_pos rfl]
      · rw [if_neg (Ne.symm hkq), if_neg hkq, if_neg (Ne.symm hkq)]
    · rw [if_neg hq] at hk ⊢
      rw [findImage, findImage, ih hk]
      by_cases hkq : q = k
      · subst hkq; rw [if_pos rfl, if_pos rfl, if_neg hq]
      · rw [if_neg hkq, if_neg hkq]

theorem mem_setImage {st : List (Handle × Image)} {h : Handle} {im : Image} {p : Handle × Image}
    (hp : p ∈ setImage st h im) : p ∈ st ∨ p.2 = im := by
  induction st with
  | nil => simp [setImage] at hp
  | cons q st ih =>
    obtain ⟨k, jm⟩ := q
    rw [setImage] at hp
    split at hp
    · rcases List.mem_cons.1 hp with rfl | hp
      · exact .inr rfl
      · exact .inl (List.mem_cons_of_mem _ hp)
    · rcases List.mem_cons.1 hp with rfl | hp
      · exact .inl (List.mem_cons_self ..)
      · exact (ih hp).imp (List.mem_cons_of_mem _) id

theorem findImage_mem {st : List (Handle × Image)} {h : Handle} {im : Image} (hf : findImage st h = some im) :
    (h, im) ∈ st := by
  induction st with
  | nil => simp [findImage] at hf
  | cons q st ih =>
    obtain ⟨k, jm⟩ := q
    rw [findImage] at hf
    split at hf
    · simp_all
    · exact List.mem_cons_of_mem _ (ih hf)

/-- Everything `ImgWrite` can do (44_sasi R184). -/
theorem State.imgWrite_spec (s : State) (h : Option Handle) (off : Nat) (bs : List Byte) :
    (s.imgOk h off bs.length = false ∧ s.imgWrite h off bs = (false, s)) ∨
    (∃ k im, h = some k ∧ findImage s.store k = some im ∧ off + bs.length ≤ im.size ∧
      s.imgOk h off bs.length = true ∧
      s.imgWrite h off bs =
        (true, { s with store := setImage s.store k { im with bytes := Memory.writeRange im.bytes off bs } })) := by
  cases h with
  | none => exact .inl ⟨rfl, rfl⟩
  | some k =>
    cases hf : findImage s.store k with
    | none => left; simp [State.imgOk, State.imgWrite, State.image?, hf]
    | some im =>
      by_cases hs : off + bs.length ≤ im.size
      · right; exact ⟨k, im, rfl, hf, hs, by simp [State.imgOk, State.image?, hf, hs],
          by simp [State.imgWrite, State.image?, hf, hs]⟩
      · left; simp [State.imgOk, State.imgWrite, State.image?, hf, hs]

/-- `ImgRead` succeeds exactly where `ImgOk` holds (44_sasi R184). -/
theorem State.imgRead_isSome (s : State) (h : Option Handle) (off n : Nat) :
    (s.imgRead h off n).isSome = s.imgOk h off n := by
  unfold State.imgRead State.imgOk
  cases s.image? h with
  | none => rfl
  | some im => by_cases hs : off + n ≤ im.size <;> simp [hs]

end Sys2Proof.Machine
end

