-- ==== Sys2Proof/Laws/Frames.lean ====
section
/-! SUPPORT. For each shared operation, once, what it can change: everything else is as it was. -/

namespace Sys2Proof.Machine

/-- What no bus transaction, device event, DMA transfer or timer changes: the clock, the scheduler's registers
but `fastclr_pending`, the number of drives, the configuration, the context, the queue, the result and the
output events. -/
structure Keeps (s t : State) : Prop where
  clk : t.clk = s.clk
  sched : t.sched = { s.sched with fastclrPending := t.sched.fastclrPending }
  drives : t.fdd.length = s.fdd.length
  cfg : t.cfg = s.cfg
  alive : t.alive = s.alive
  queue : t.queue = s.queue
  result : t.result = s.result
  emitted : t.emitted = s.emitted

theorem Keeps.refl (s : State) : Keeps s s := ⟨rfl, rfl, rfl, rfl, rfl, rfl, rfl, rfl⟩

theorem Keeps.trans {s t u : State} (h : Keeps s t) (k : Keeps t u) : Keeps s u :=
  ⟨k.clk.trans h.clk, by rw [k.sched, h.sched], k.drives.trans h.drives, k.cfg.trans h.cfg,
    k.alive.trans h.alive, k.queue.trans h.queue, k.result.trans h.result, k.emitted.trans h.emitted⟩

theorem Keeps.seq {s t : State} (h : Keeps s t) : t.sched.seq = s.sched.seq := by rw [h.sched]

theorem Keeps.call (s : State) (c : Call) : Keeps s (s.call c) := ⟨rfl, rfl, rfl, rfl, rfl, rfl, rfl, rfl⟩

theorem Keeps.drew (s : State) (i : Inputs) : Keeps s (s.drew i) := ⟨rfl, rfl, rfl, rfl, rfl, rfl, rfl, rfl⟩

theorem Keeps.requestSrc (s : State) (src : Src) : Keeps s (s.requestSrc src) :=
  ⟨rfl, rfl, rfl, rfl, rfl, rfl, rfl, rfl⟩

theorem Keeps.withSasi (s : State) (d : Sasi) : Keeps s (s.withSasi d) :=
  ⟨rfl, rfl, rfl, rfl, rfl, rfl, rfl, rfl⟩

theorem Keeps.withChannel (s : State) (c : Fin 3) (ch : DmaChannel) : Keeps s (s.withChannel c ch) :=
  ⟨rfl, rfl, rfl, rfl, rfl, rfl, rfl, rfl⟩

/-! ### The SASI controller -/

/-- What a command or a port of the SASI controller changes: its own registers and `irq.pend`, nothing else
(60_exceptions R243). -/
def OnlySasi (s t : State) : Prop := ∃ d p, t = { s with sasi := d, pend := p }

theorem OnlySasi.refl (s : State) : OnlySasi s s := ⟨s.sasi, s.pend, rfl⟩

theorem OnlySasi.trans {s t u : State} (h : OnlySasi s t) (k : OnlySasi t u) : OnlySasi s u := by
  obtain ⟨d, p, rfl⟩ := h
  obtain ⟨d', p', rfl⟩ := k
  exact ⟨d', p', rfl⟩

theorem OnlySasi.keeps {s t : State} (h : OnlySasi s t) : Keeps s t := by
  obtain ⟨d, p, rfl⟩ := h
  exact ⟨rfl, rfl, rfl, rfl, rfl, rfl, rfl, rfl⟩

theorem OnlySasi.withSasi (s : State) (d : Sasi) : OnlySasi s (s.withSasi d) := ⟨d, s.pend, rfl⟩

theorem OnlySasi.requestSrc (s : State) (src : Src) : OnlySasi s (s.requestSrc src) := ⟨s.sasi, _, rfl⟩

theorem OnlySasi.enterStatus (s : State) : OnlySasi s s.enterStatus :=
  (OnlySasi.withSasi s _).trans (OnlySasi.requestSrc _ _)

theorem OnlySasi.endCommand (s : State) (stat : Byte) : OnlySasi s (s.endCommand stat) :=
  (OnlySasi.withSasi s _).trans (OnlySasi.enterStatus _)

theorem OnlySasi.failCommand (s : State) (e : Byte) : OnlySasi s (s.failCommand e) :=
  (OnlySasi.withSasi s _).trans (OnlySasi.enterStatus _)

theorem OnlySasi.violate (s : State) : OnlySasi s s.violate :=
  (OnlySasi.withSasi s _).trans (OnlySasi.failCommand _ _)

theorem OnlySasi.requestPerByte (s : State) : OnlySasi s s.requestPerByte := by
  unfold State.requestPerByte
  split
  · exact OnlySasi.requestSrc _ _
  · exact OnlySasi.refl _

theorem OnlySasi.sasiSelect (s : State) (v : Byte) : OnlySasi s (s.sasiSelect v) := by
  unfold State.sasiSelect
  split
  · split
    · exact OnlySasi.withSasi _ _
    · exact OnlySasi.refl _
  · exact OnlySasi.refl _

theorem OnlySasi.sasiAcksel (s : State) : OnlySasi s s.sasiAcksel := by
  unfold State.sasiAcksel
  split
  · exact OnlySasi.withSasi _ _
  · exact OnlySasi.refl _

theorem OnlySasi.sasiReset (s : State) : OnlySasi s s.sasiReset := OnlySasi.withSasi _ _

theorem OnlySasi.startRead (s : State) : OnlySasi s s.startRead := by
  unfold State.startRead
  split
  · exact OnlySasi.failCommand _ _
  · split
    · exact OnlySasi.failCommand _ _
    · exact OnlySasi.withSasi _ _

theorem OnlySasi.readBlocks (s : State) : OnlySasi s s.readBlocks :=
  (OnlySasi.withSasi s _).trans (OnlySasi.startRead _)

theorem OnlySasi.startWrite (s : State) : OnlySasi s s.startWrite := by
  unfold State.startWrite
  split
  · exact OnlySasi.failCommand _ _
  · split
    · exact OnlySasi.withSasi _ _
    · exact OnlySasi.failCommand _ _

theorem OnlySasi.writeBlocks (s : State) : OnlySasi s s.writeBlocks :=
  (OnlySasi.withSasi s _).trans (OnlySasi.startWrite _)

theorem OnlySasi.testReady (s : State) : OnlySasi s s.testReady := by
  unfold State.testReady
  split
  · exact OnlySasi.endCommand _ _
  · exact OnlySasi.failCommand _ _

theorem OnlySasi.recalibrate (s : State) : OnlySasi s s.recalibrate := by
  unfold State.recalibrate
  split
  · exact (OnlySasi.withSasi s _).trans (OnlySasi.endCommand _ _)
  · exact OnlySasi.failCommand _ _

theorem OnlySasi.seekUnit (s : State) : OnlySasi s s.seekUnit := by
  unfold State.seekUnit
  split
  · exact OnlySasi.endCommand _ _
  · exact OnlySasi.failCommand _ _

theorem OnlySasi.runCommand (s : State) (op : CmdOp) : OnlySasi s (s.runCommand op) := by
  cases op
  · exact OnlySasi.testReady s
  · exact OnlySasi.recalibrate s
  · exact OnlySasi.withSasi _ _
  · exact OnlySasi.endCommand _ _
  · exact OnlySasi.readBlocks s
  · exact OnlySasi.writeBlocks s
  · exact OnlySasi.seekUnit s
  · exact OnlySasi.withSasi _ _
  · exact OnlySasi.failCommand _ _

theorem OnlySasi.sasiExecute (s : State) : OnlySasi s s.sasiExecute :=
  (OnlySasi.withSasi s _).trans (OnlySasi.runCommand _ _)

theorem OnlySasi.cmdbyte (s : State) (v : Byte) : OnlySasi s (s.cmdbyte v) := by
  unfold State.cmdbyte
  dsimp only
  split
  · exact (OnlySasi.withSasi s _).trans (OnlySasi.sasiExecute _)
  · exact OnlySasi.withSasi _ _

theorem OnlySasi.blockRead (s : State) : OnlySasi s s.blockRead := by
  unfold State.blockRead
  split
  · exact OnlySasi.enterStatus _
  · split
    · exact OnlySasi.failCommand _ _
    · exact OnlySasi.withSasi _ _

theorem OnlySasi.nextBlockIn (s : State) : OnlySasi s s.nextBlockIn :=
  (OnlySasi.withSasi s _).trans (OnlySasi.blockRead _)

theorem OnlySasi.byteMoved (s : State) : OnlySasi s s.byteMoved :=
  (OnlySasi.withSasi s _).trans (OnlySasi.requestPerByte _)

theorem OnlySasi.datain (s : State) : OnlySasi s s.datain := by
  unfold State.datain
  split
  · exact (OnlySasi.byteMoved s).trans (OnlySasi.nextBlockIn _)
  · exact OnlySasi.byteMoved s

theorem OnlySasi.sensebyte (s : State) : OnlySasi s s.sensebyte := by
  unfold State.sensebyte
  dsimp only
  split
  · exact (OnlySasi.withSasi s _).trans (OnlySasi.enterStatus _)
  · exact OnlySasi.withSasi _ _

theorem OnlySasi.vendorbyte (s : State) : OnlySasi s s.vendorbyte := by
  unfold State.vendorbyte
  dsimp only
  split
  · exact (OnlySasi.withSasi s _).trans (OnlySasi.endCommand _ _)
  · exact OnlySasi.withSasi _ _

theorem OnlySasi.sasiDataRd (s : State) : OnlySasi s s.sasiDataRd.2 := by
  unfold State.sasiDataRd
  split
  · exact OnlySasi.datain s
  · exact OnlySasi.withSasi _ _
  · exact OnlySasi.withSasi _ _
  · exact OnlySasi.sensebyte s
  · exact OnlySasi.violate s
  all_goals exact OnlySasi.refl s

/-- Everything `SASI.DATAOUT` can change: the controller, `irq.pend`, and the addressed unit's image
(44_sasi R177). -/
def OnlySasiStore (s t : State) : Prop := ∃ d p st, t = { s with sasi := d, pend := p, store := st }

theorem OnlySasi.store {s t : State} (h : OnlySasi s t) : OnlySasiStore s t := by
  obtain ⟨d, p, rfl⟩ := h
  exact ⟨d, p, s.store, rfl⟩

theorem OnlySasiStore.trans {s t u : State} (h : OnlySasiStore s t) (k : OnlySasiStore t u) :
    OnlySasiStore s u := by
  obtain ⟨d, p, st, rfl⟩ := h
  obtain ⟨d', p', st', rfl⟩ := k
  exact ⟨d', p', st', rfl⟩

theorem OnlySasiStore.keeps {s t : State} (h : OnlySasiStore s t) : Keeps s t := by
  obtain ⟨d, p, st, rfl⟩ := h
  exact ⟨rfl, rfl, rfl, rfl, rfl, rfl, rfl, rfl⟩

theorem OnlySasiStore.imgWrite (s : State) (h : Option Handle) (off : Nat) (bs : List Byte) :
    OnlySasiStore s (s.imgWrite h off bs).2 := by
  rcases s.imgWrite_spec h off bs with ⟨_, e⟩ | ⟨k, im, _, _, _, _, e⟩ <;> rw [e]
  · exact ⟨s.sasi, s.pend, s.store, rfl⟩
  · exact ⟨s.sasi, s.pend, _, rfl⟩

theorem OnlySasi.blockWritten (s : State) : OnlySasi s s.blockWritten := by
  unfold State.blockWritten
  split
  · exact OnlySasi.enterStatus _
  · split
    · exact OnlySasi.refl _
    · exact OnlySasi.failCommand _ _

theorem OnlySasiStore.flush (s : State) : OnlySasiStore s s.flush.2 := OnlySasiStore.imgWrite _ _ _ _

theorem OnlySasiStore.flushed (r : Bool × State) : OnlySasiStore r.2 (State.flushed r) := by
  unfold State.flushed
  split
  · exact ((OnlySasi.withSasi _ _).trans (OnlySasi.blockWritten _)).store
  · exact (OnlySasi.failCommand _ _).store

theorem OnlySasiStore.nextBlockOut (s : State) : OnlySasiStore s s.nextBlockOut :=
  ((OnlySasi.withSasi s _).store.trans (OnlySasiStore.flush _)).trans (OnlySasiStore.flushed _)

theorem OnlySasiStore.dataout (s : State) (v : Byte) : OnlySasiStore s (s.dataout v) := by
  have h := (OnlySasi.withSasi s { s.sasi with buf := s.sasi.buf.setIfInBounds s.sasi.bufptr.toNat v }).trans
    (OnlySasi.byteMoved (s.bufferByte v))
  unfold State.dataout
  split
  · exact h.store.trans (OnlySasiStore.nextBlockOut _)
  · exact h.store

theorem OnlySasiStore.sasiDataWr (s : State) (v : Byte) : OnlySasiStore s (s.sasiDataWr v) := by
  unfold State.sasiDataWr
  split
  · exact (OnlySasi.cmdbyte s v).store
  · exact OnlySasiStore.dataout s v
  · exact (OnlySasi.vendorbyte s).store
  · exact (OnlySasi.violate s).store
  all_goals exact (OnlySasi.refl s).store

/-! ### External devices, memory, the bus -/

theorem Keeps.startChannel (s : State) (c : Fin 3) (src dst : Addr) (n : BitVec 16) (ss ds : BitVec 2) :
    Keeps s (s.startChannel c src dst n ss ds) := by
  unfold State.startChannel
  split
  · exact Keeps.refl _
  · exact Keeps.withChannel _ _ _

theorem Keeps.dmaStart (s : State) (c : BitVec 2) (src dst : Addr) (n : BitVec 16) (ss ds : BitVec 2) :
    Keeps s (s.dmaStart c src dst n ss ds) := by
  unfold State.dmaStart
  split
  · exact Keeps.startChannel _ _ _ _ _ _ _
  · exact Keeps.refl _

theorem Keeps.modifyDrive (s : State) (d : Nat) (f : Fdd → Fdd) : Keeps s (s.modifyDrive d f) :=
  ⟨rfl, rfl, by simp, rfl, rfl, rfl, rfl, rfl⟩

theorem Keeps.fddReadSector (s : State) (d lba : Nat) : Keeps s (s.fddReadSector d lba).2 := by
  unfold State.fddReadSector
  split
  · exact Keeps.refl _
  · exact Keeps.modifyDrive _ _ _

theorem Keeps.fddWriteSector (s : State) (d lba : Nat) (bs : List Byte) :
    Keeps s (s.fddWriteSector d lba bs).2 := by
  unfold State.fddWriteSector
  split
  · exact Keeps.refl _
  · exact (OnlySasiStore.imgWrite _ _ _ _).keeps

theorem Keeps.applyEvent (s : State) (e : ExtEvent) : Keeps s (s.applyEvent e) := by
  cases e with
  | irqRequest src => exact Keeps.requestSrc _ _
  | fastclrRequest => exact ⟨rfl, rfl, rfl, rfl, rfl, rfl, rfl, rfl⟩
  | fddReadSector d lba => exact (Keeps.fddReadSector s d lba).trans (Keeps.call _ _)
  | fddWriteSector d lba bs => exact (Keeps.fddWriteSector s d lba bs).trans (Keeps.call _ _)
  | dmaStart c src dst n ss ds => exact Keeps.dmaStart _ _ _ _ _ _ _

/-- A relation between states that every member of a list of operations keeps, their composition keeps. -/
theorem Keeps.foldl {α : Type} {f : State → α → State} (h : ∀ s a, Keeps s (f s a)) (l : List α) (s : State) :
    Keeps s (l.foldl f s) := by
  induction l generalizing s with
  | nil => exact Keeps.refl s
  | cons a l ih => exact (h s a).trans (ih (f s a))

theorem Keeps.drawEvents (s : State) (allows : ExtEvent → Bool) : Keeps s (s.drawEvents allows) :=
  (Keeps.drew s _).trans (Keeps.foldl Keeps.applyEvent _ _)

theorem Keeps.extRead (s : State) (a : Addr) : Keeps s (s.extRead a).2 :=
  ((Keeps.call s _).trans (Keeps.drawEvents _ _)).trans (Keeps.drew _ _)

theorem Keeps.extWrite (s : State) (a : Addr) (v : Byte) : Keeps s (s.extWrite a v) :=
  (Keeps.call s _).trans (Keeps.drawEvents _ _)

theorem Keeps.rtcRead (s : State) (a : Addr) : Keeps s (s.rtcRead a).2 := by
  unfold State.rtcRead
  split
  · exact Keeps.drew _ _
  · exact Keeps.refl _

theorem Keeps.rtcWrite (s : State) (a : Addr) (v : Byte) : Keeps s (s.rtcWrite a v) :=
  ⟨rfl, rfl, rfl, rfl, rfl, rfl, rfl, rfl⟩

theorem Keeps.ramWrite (s : State) (a : Addr) (v : Byte) : Keeps s (s.ramWrite a v) := by
  unfold State.ramWrite
  split
  · exact ⟨rfl, rfl, rfl, rfl, rfl, rfl, rfl, rfl⟩
  · exact Keeps.refl _

theorem Keeps.sramWrite (s : State) (a : Addr) (v : Byte) : Keeps s (s.sramWrite a v) := by
  unfold State.sramWrite
  split
  · exact ⟨rfl, rfl, rfl, rfl, rfl, rfl, rfl, rfl⟩
  · exact Keeps.refl _

/-- What no byte read of the bus changes. -/
theorem Keeps.busRd8 (s : State) (a : Addr) : Keeps s (s.busRd8 a).2 := by
  unfold State.busRd8
  split
  · exact (OnlySasi.sasiDataRd s).keeps
  · exact Keeps.refl _
  · exact Keeps.rtcRead _ _
  · exact Keeps.refl _
  · exact Keeps.refl _
  · exact Keeps.refl _
  · exact Keeps.refl _
  · exact Keeps.extRead _ _
  all_goals exact Keeps.refl _

/-- What no byte write of the bus changes. -/
theorem Keeps.busWr8 (s : State) (a : Addr) (v : Byte) : Keeps s (s.busWr8 a v) := by
  unfold State.busWr8
  split
  · exact (OnlySasiStore.sasiDataWr s v).keeps
  · exact (OnlySasi.sasiAcksel s).keeps
  · exact (OnlySasi.sasiReset s).keeps
  · exact (OnlySasi.sasiSelect s v).keeps
  · exact ⟨rfl, rfl, rfl, rfl, rfl, rfl, rfl, rfl⟩
  · exact Keeps.rtcWrite _ _ _
  · exact Keeps.ramWrite _ _ _
  · exact Keeps.sramWrite _ _ _
  · exact Keeps.extWrite _ _ _
  all_goals exact Keeps.refl _

theorem Keeps.busRd16 (s : State) (a : Addr) : Keeps s (s.busRd16 a).2 :=
  (Keeps.busRd8 s a).trans (Keeps.busRd8 _ _)

theorem Keeps.busWr16 (s : State) (a : Addr) (v : BitVec 16) : Keeps s (s.busWr16 a v) :=
  (Keeps.busWr8 s a _).trans (Keeps.busWr8 _ _ _)

theorem Keeps.busRd32 (s : State) (a : Addr) : Keeps s (s.busRd32 a).2 :=
  (((Keeps.busRd8 s a).trans (Keeps.busRd8 _ _)).trans (Keeps.busRd8 _ _)).trans (Keeps.busRd8 _ _)

theorem Keeps.busWr32 (s : State) (a : Addr) (v : BitVec 32) : Keeps s (s.busWr32 a v) :=
  (((Keeps.busWr8 s a _).trans (Keeps.busWr8 _ _ _)).trans (Keeps.busWr8 _ _ _)).trans (Keeps.busWr8 _ _ _)

/-! ### DMA -/

theorem Keeps.completeChannel (s : State) (c : Fin 3) : Keeps s (s.completeChannel c) :=
  (Keeps.withChannel s c _).trans (Keeps.call _ _)

theorem Keeps.moveByte (s : State) (c : Fin 3) : Keeps s (s.moveByte c) :=
  (Keeps.busRd8 s _).trans (Keeps.busWr8 _ _ _)

theorem Keeps.completeIfDone (s : State) (c : Fin 3) : Keeps s (s.completeIfDone c) := by
  unfold State.completeIfDone
  split
  · exact Keeps.completeChannel _ _
  · exact Keeps.refl _

theorem Keeps.dmaXfer (s : State) (c : Fin 3) : Keeps s (s.dmaXfer c) :=
  ((Keeps.moveByte s c).trans (Keeps.withChannel _ c _)).trans (Keeps.completeIfDone _ _)

theorem Keeps.sampledReady (s : State) (c : Fin 3) : Keeps s (s.sampledReady c) := by
  unfold State.sampledReady
  split
  · exact Keeps.refl _
  all_goals exact Keeps.drew _ _

theorem Keeps.withCredit (s : State) (c : Fin 3) (n : Nat) : Keeps s (s.withCredit c n) :=
  Keeps.withChannel _ _ _

theorem Keeps.dmaLoop (c : Fin 3) (line : Bool) (n : Nat) (s : State) : Keeps s (State.dmaLoop c line n s) := by
  induction n generalizing s with
  | zero => exact Keeps.refl s
  | succ n ih =>
    rw [State.dmaLoop]
    split
    · exact ((Keeps.withCredit _ _ _).trans (Keeps.dmaXfer _ _)).trans (ih _)
    · exact Keeps.refl s

theorem Keeps.settleCredit (s : State) (c : Fin 3) (line : Bool) : Keeps s (s.settleCredit c line) := by
  unfold State.settleCredit
  split
  · exact Keeps.refl _
  · exact Keeps.withCredit _ _ _

theorem Keeps.dmaTurn (s : State) (c : Fin 3) (line : Bool) (used : Nat) : Keeps s (s.dmaTurn c line used) := by
  unfold State.dmaTurn State.dmaPaced
  split
  · exact ((Keeps.withCredit _ _ _).trans (Keeps.dmaLoop _ _ _ _)).trans (Keeps.settleCredit _ _ _)
  · exact Keeps.settleCredit _ _ _

/-- What no `DMA.STEP` changes (43_dma R141, R146). -/
theorem Keeps.dmaStep (s : State) (c : Fin 3) (used : Nat) : Keeps s (s.dmaStep c used) := by
  unfold State.dmaStep
  split
  · exact (Keeps.sampledReady s c).trans (Keeps.dmaTurn _ _ _ _)
  · exact Keeps.dmaTurn _ _ _ _

/-! ### The backend and the timers -/

theorem Keeps.backendOp (s : State) (op : BackendOp) : Keeps s (s.backendOp op) := by
  cases op with
  | rd8 a => exact (Keeps.busRd8 s a).trans (Keeps.call _ _)
  | wr8 a v => exact Keeps.busWr8 s a v
  | rd16 a => exact (Keeps.busRd16 s a).trans (Keeps.call _ _)
  | wr16 a v => exact Keeps.busWr16 s a v
  | rd32 a => exact (Keeps.busRd32 s a).trans (Keeps.call _ _)
  | wr32 a v => exact Keeps.busWr32 s a v
  | dmaStart c src dst n ss ds => exact Keeps.dmaStart _ _ _ _ _ _ _

/-- What the CPU backend cannot change inside `execute` (41_scheduler R110). -/
theorem Keeps.execute (s : State) (req : Nat) (irq : Option (Src × Byte)) : Keeps s (s.execute req irq).2 :=
  ((Keeps.drew s _).trans (Keeps.call _ _)).trans (Keeps.foldl Keeps.backendOp _ _)

theorem Keeps.resolve (s : State) : Keeps s s.resolve.2 := by
  unfold State.resolve
  split
  · exact Keeps.refl _
  · exact ⟨rfl, rfl, rfl, rfl, rfl, rfl, rfl, rfl⟩

theorem Keeps.rtcTick (s : State) (used : Nat) : Keeps s (s.rtcTick used) := by
  unfold State.rtcTick
  dsimp only
  split
  all_goals exact ⟨rfl, rfl, rfl, rfl, rfl, rfl, rfl, rfl⟩

/-- `TIMERS.TICK` emits one event and changes nothing else that `Keeps` names (41_scheduler R126). -/
theorem State.timersTick_frame (s : State) (used : Nat) :
    Keeps ((s.rtcTick used).emit (.extTick used)) (s.timersTick used) := Keeps.drawEvents _ _

/-- The cycles a slice passes are at least 1 and at most the request and `OVERRUN_MAX` (41_scheduler R110). -/
theorem consumedOf_bounds (raw req extra : Nat) :
    1 ≤ consumedOf raw req extra ∧ consumedOf raw req extra ≤ max 1 (req + extra) := by
  unfold consumedOf
  omega

end Sys2Proof.Machine
end

