-- ==== Sys2Proof/Laws/Effects.lean ====
section
/-! SUPPORT. What the shared operations do, said once: the log of calls only grows, fast clear and frame skip as
one record update each, the pending register bit by bit, and the choice of the least rank. -/

namespace Sys2Proof.Machine

/-- `t` holds every call `s` made, and perhaps newer ones before them, none of which runs the CPU backend: what
every operation but `CPU_EXEC.execute` does to the log of calls (41_scheduler R108, R110). -/
def CallsGrow (s t : State) : Prop :=
  ∃ l, t.calls = l ++ s.calls ∧ ∀ c ∈ l, ∀ n irq, c ≠ .cpuExecute n irq

theorem CallsGrow.of {s t : State} (h : t.calls = s.calls) : CallsGrow s t := ⟨[], h, nofun⟩

theorem CallsGrow.refl (s) : CallsGrow s s := .of rfl

theorem CallsGrow.trans {s t u} (h : CallsGrow s t) (k : CallsGrow t u) : CallsGrow s u := by
  obtain ⟨a, ha, na⟩ := h
  obtain ⟨b, hb, nb⟩ := k
  exact ⟨b ++ a, by rw [hb, ha, List.append_assoc], fun c hc => (List.mem_append.1 hc).elim (nb c) (na c)⟩

theorem CallsGrow.call (s : State) (c) (h : ∀ n irq, c ≠ .cpuExecute n irq) : CallsGrow s (s.call c) :=
  ⟨[c], rfl, fun d hd => by rw [List.mem_singleton.1 hd]; exact h⟩

/-- A fold of operations that only add to the log of calls only adds to it. -/
theorem CallsGrow.foldl {α} {f : State → α → State} (hf : ∀ s a, CallsGrow s (f s a)) (l : List α) (s : State) :
    CallsGrow s (l.foldl f s) := by
  induction l generalizing s with
  | nil => exact .refl s
  | cons x xs ih => exact (hf s x).trans (ih _)

/-- The SASI operations call nothing outside the machine. -/
theorem CallsGrow.onlySasiStore {s t} (h : OnlySasiStore s t) : CallsGrow s t := by
  obtain ⟨_, _, _, rfl⟩ := h; exact CallsGrow.of rfl

theorem CallsGrow.dmaStart (s : State) (c src dst n ss ds) : CallsGrow s (s.dmaStart c src dst n ss ds) := by
  unfold State.dmaStart State.startChannel
  split
  · split <;> exact CallsGrow.of rfl
  · exact CallsGrow.refl _

theorem CallsGrow.applyEvent (s : State) (e) : CallsGrow s (s.applyEvent e) := by
  cases e
  · exact CallsGrow.of rfl
  · exact CallsGrow.of rfl
  · refine CallsGrow.trans (CallsGrow.of ?_) (CallsGrow.call _ _ (by nofun))
    unfold State.fddReadSector; split <;> rfl
  · refine CallsGrow.trans (CallsGrow.of ?_) (CallsGrow.call _ _ (by nofun))
    unfold State.fddWriteSector State.imgWrite
    split
    · rfl
    · split
      · split <;> rfl
      · rfl
  · exact CallsGrow.dmaStart _ _ _ _ _ _ _

theorem CallsGrow.drawEvents (s : State) (f) : CallsGrow s (s.drawEvents f) :=
  CallsGrow.trans (CallsGrow.of rfl) (CallsGrow.foldl CallsGrow.applyEvent _ _)

/-- A byte read only adds to the log of calls. -/
theorem CallsGrow.busRd8 (s : State) (a) : CallsGrow s (s.busRd8 a).2 := by
  unfold State.busRd8
  split
  all_goals first
    | exact CallsGrow.refl _
    | exact CallsGrow.onlySasiStore (OnlySasi.sasiDataRd s).store
    | (unfold State.rtcRead; split <;> exact CallsGrow.of rfl)
    | exact CallsGrow.trans (CallsGrow.call _ _ (by nofun)) (CallsGrow.trans (CallsGrow.drawEvents _ _) (CallsGrow.of rfl))

/-- A byte write only adds to the log of calls. -/
theorem CallsGrow.busWr8 (s : State) (a v) : CallsGrow s (s.busWr8 a v) := by
  unfold State.busWr8
  split
  all_goals first
    | exact CallsGrow.refl _
    | exact CallsGrow.onlySasiStore (OnlySasiStore.sasiDataWr s v)
    | exact CallsGrow.onlySasiStore (OnlySasi.sasiAcksel s).store
    | exact CallsGrow.onlySasiStore (OnlySasi.sasiReset s).store
    | exact CallsGrow.onlySasiStore (OnlySasi.sasiSelect s v).store
    | exact CallsGrow.of rfl
    | (unfold State.ramWrite; split <;> exact CallsGrow.of rfl)
    | (unfold State.sramWrite; split <;> exact CallsGrow.of rfl)
    | exact CallsGrow.trans (CallsGrow.call _ _ (by nofun)) (CallsGrow.drawEvents _ _)

theorem CallsGrow.backendOp (s : State) (op) : CallsGrow s (s.backendOp op) := by
  cases op
  · exact (CallsGrow.busRd8 _ _).trans (CallsGrow.call _ _ (by nofun))
  · exact CallsGrow.busWr8 _ _ _
  · exact ((CallsGrow.busRd8 _ _).trans (CallsGrow.busRd8 _ _)).trans (CallsGrow.call _ _ (by nofun))
  · exact (CallsGrow.busWr8 _ _ _).trans (CallsGrow.busWr8 _ _ _)
  · exact ((((CallsGrow.busRd8 _ _).trans (CallsGrow.busRd8 _ _)).trans (CallsGrow.busRd8 _ _)).trans (CallsGrow.busRd8 _ _)).trans (CallsGrow.call _ _ (by nofun))
  · exact (((CallsGrow.busWr8 _ _ _).trans (CallsGrow.busWr8 _ _ _)).trans (CallsGrow.busWr8 _ _ _)).trans (CallsGrow.busWr8 _ _ _)
  · exact CallsGrow.dmaStart _ _ _ _ _ _ _

theorem CallsGrow.dmaXfer (s : State) (c) : CallsGrow s (s.dmaXfer c) := by
  refine CallsGrow.trans (t := s.moveByte c) ((CallsGrow.busRd8 _ _).trans (CallsGrow.busWr8 _ _ _)) ?_
  unfold State.dmaXfer State.completeIfDone
  split
  · exact CallsGrow.trans (CallsGrow.of rfl) (CallsGrow.call _ _ (by nofun))
  · exact CallsGrow.of rfl

theorem CallsGrow.sampledReady (s : State) (c) : CallsGrow s (s.sampledReady c) := by
  unfold State.sampledReady; split <;> exact CallsGrow.of rfl

theorem CallsGrow.withCredit (s : State) (c n) : CallsGrow s (s.withCredit c n) := CallsGrow.of rfl

/-- The loop of `DMA.STEP` only adds to the log of calls. -/
theorem CallsGrow.dmaLoop (c line n) (s : State) : CallsGrow s (State.dmaLoop c line n s) := by
  induction n generalizing s with
  | zero => exact CallsGrow.refl _
  | succ n ih =>
    unfold State.dmaLoop
    split
    · exact ((CallsGrow.withCredit _ _ _).trans (CallsGrow.dmaXfer _ _)).trans (ih _)
    · exact CallsGrow.refl _

theorem CallsGrow.settleCredit (s : State) (c line) : CallsGrow s (s.settleCredit c line) := by
  unfold State.settleCredit
  split
  · exact CallsGrow.refl _
  · exact CallsGrow.withCredit _ _ _

theorem CallsGrow.dmaTurn (s : State) (c line u) : CallsGrow s (s.dmaTurn c line u) := by
  unfold State.dmaTurn State.dmaPaced
  split
  · exact ((CallsGrow.withCredit _ _ _).trans (CallsGrow.dmaLoop _ _ _ _)).trans (CallsGrow.settleCredit _ _ _)
  · exact CallsGrow.settleCredit _ _ _

/-- `DMA.STEP` only adds to the log of calls, newest first. -/
theorem CallsGrow.dmaStep (s : State) (c u) : CallsGrow s (s.dmaStep c u) := by
  unfold State.dmaStep
  split
  · exact (CallsGrow.sampledReady s c).trans (CallsGrow.dmaTurn _ _ _ _)
  · exact CallsGrow.dmaTurn _ _ _ _

/-- TICK only adds to the log of calls. -/
theorem CallsGrow.timersTick (s : State) (u) : CallsGrow s (s.timersTick u) := by
  refine CallsGrow.trans (CallsGrow.of ?_) (CallsGrow.drawEvents _ _)
  unfold State.rtcTick; dsimp only; split <;> rfl

/-- FASTCLR as one record update (R120): it counts down from the mode's frame count and ends at zero. -/
theorem fastclrResolve_eq (s : State) (m : VideoMode) :
    s.fastclrResolve m = { s with
      sched := { s.sched with
        fastclrPending := s.sched.fastclrPending && (s.sched.fastclrCnt == 0 || s.sched.fastclrCnt - 1 != 0)
        fastclrCnt := if s.sched.fastclrPending then
            if s.sched.fastclrCnt = 0 then BitVec.ofNat 2 m.fastclrFrames else s.sched.fastclrCnt - 1
          else s.sched.fastclrCnt }
      emitted := if s.sched.fastclrPending ∧ s.sched.fastclrCnt = 0 then .fastclrExecute :: s.emitted
        else s.emitted } := by
  rcases s with ⟨_, ⟨_, _, _, _, _, _, fp, fc⟩, _, _, _, _, _, _, _, _, _, _, _, _, _, _, _, _⟩
  cases fp
  · rfl
  · by_cases hc : fc = 0
    · subst hc
      rfl
    · replace hc : fc ≠ 0#2 := hc
      simp [State.fastclrResolve, Sched.fastclrDue, State.fastclrCounted, hc]

/-- FRAMESKIP as one record update (R121). -/
theorem frameskipAdapt_eq (s : State) (m : VideoMode) (ms : BitVec 32) :
    s.frameskipAdapt m ms = { s with
      sched := { s.sched with
        skipq := if m.idealMs < ms.toNat then
            BitVec.ofNat 8 (min s.cfg.frameskipMax (s.sched.skipq.toNat + ms.toNat / m.idealMs))
          else s.sched.skipq }
      calls := .pacing ms m.idealMs :: s.calls } := by
  by_cases h : m.idealMs < ms.toNat <;> simp only [State.frameskipAdapt, h, State.call, if_true, if_false]

/-- Latching a source sets its pending bit and no other (R130). -/
theorem pending_setPending (p : BitVec 9) (a b : Src) : pending (setPending p a) b = (pending p b || b == a) := by
  cases a <;> cases b <;> simp [pending, setPending, Src.id, BitVec.twoPow]

/-- Delivering a source clears its pending bit and no other (R132). -/
theorem pending_clearPending (p : BitVec 9) (a b : Src) : pending (clearPending p a) b = (pending p b && b != a) := by
  cases a <;> cases b <;> simp [pending, clearPending, Src.id, BitVec.twoPow]

/-- The pending register is determined by the nine sources it holds. -/
theorem pend_ext {p q : BitVec 9} (h : ∀ s, pending p s = pending q s) : p = q := by
  apply BitVec.eq_of_getLsbD_eq
  intro i hi
  have : ∃ s : Src, s.id.val = i := by
    have : i = 0 ∨ i = 1 ∨ i = 2 ∨ i = 3 ∨ i = 4 ∨ i = 5 ∨ i = 6 ∨ i = 7 ∨ i = 8 := by omega
    rcases this with h|h|h|h|h|h|h|h|h <;> subst h
    exacts [⟨.sasi, rfl⟩, ⟨.fdc, rfl⟩, ⟨.mfpTimer, rfl⟩, ⟨.vblankStart, rfl⟩, ⟨.vblankEnd, rfl⟩, ⟨.raster, rfl⟩, ⟨.key, rfl⟩, ⟨.mouse, rfl⟩, ⟨.rtc, rfl⟩]
  obtain ⟨s, hs⟩ := this
  have := h s
  simp only [pending, hs] at this
  exact this

/-- What the choice of a source is: a source of the list whose rank no other source of the list undercuts (R132). -/
theorem leastRank_spec (rank : Src → Nat) (l : List Src) :
    (leastRank rank l = none ↔ l = []) ∧ ∀ s, leastRank rank l = some s → s ∈ l ∧ ∀ o ∈ l, rank s ≤ rank o := by
  induction l with
  | nil => simp [leastRank]
  | cons x xs ih =>
    unfold leastRank
    constructor
    · constructor
      · intro h; split at h
        · cases h
        · split at h <;> cases h
      · intro h; cases h
    · intro s hs
      cases hr : leastRank rank xs with
      | none =>
        rw [hr] at hs; cases hs
        have := ih.1.1 hr; subst this
        simp
      | some t =>
        rw [hr] at hs
        obtain ⟨m, hm⟩ := ih.2 t hr
        dsimp at hs
        split at hs
        · rename_i hle; cases hs
          refine ⟨List.mem_cons_self, ?_⟩
          intro o ho; rcases List.mem_cons.1 ho with h | h
          · subst h; exact le_rfl
          · exact le_trans hle (hm o h)
        · rename_i hle; cases hs
          refine ⟨List.mem_cons_of_mem _ m, ?_⟩
          intro o ho; rcases List.mem_cons.1 ho with h | h
          · subst h; omega
          · exact hm o h

/-- In a permitted priority vector two sources never share a rank (R131). -/
theorem rank_inj {p : Vector Nat 9} (h : prioWf p = true) (a b : Src) (hab : p[a.id.val] = p[b.id.val]) : a = b := by
  simp only [prioWf, Bool.and_eq_true, decide_eq_true_eq] at h
  have hn := h.1.1
  have : a.id.val = b.id.val := by
    have hl : p.toList.length = 9 := by simp
    have := (List.nodup_iff_injective_get.1 hn) (a₁ := ⟨a.id.val, by rw [hl]; exact a.id.isLt⟩) (a₂ := ⟨b.id.val, by rw [hl]; exact b.id.isLt⟩) (by simpa using hab)
    simpa using this
  cases a <;> cases b <;> first | rfl | (exfalso; revert this; decide)

theorem Src.mem_all (s : Src) : s ∈ Src.all := by cases s <;> decide

end Sys2Proof.Machine
end

