-- ==== Sys2Proof/Laws/History.lean ====
section
/-! SUPPORT. What went out before an operation and what the operation before it returned do not matter to it
(46_snapshot R234, log 10): every shared operation commutes with a longer past. -/

namespace Sys2Proof.Machine

/-- What went out before, oldest last, and what the last operation returned. -/
structure Past where
  emitted : List OutEvent
  calls : List Call
  result : Result

/-- The state with a longer past. -/
def State.withPast (s : State) (p : Past) : State :=
  { s with emitted := s.emitted ++ p.emitted, calls := s.calls ++ p.calls, result := p.result }

/-- Another result alone is a past in which nothing more went out. -/
theorem State.returning_eq_withPast (s : State) (r : Result) : s.returning r = s.withPast ⟨[], [], r⟩ := by
  simp [State.withPast, State.returning]

theorem State.withPast_returning (s : State) (p : Past) (r : Result) :
    (s.withPast p).returning r =
      { s.returning r with emitted := s.emitted ++ p.emitted, calls := s.calls ++ p.calls } := rfl

@[simp] theorem State.withPast_clk (s : State) (p : Past) : (s.withPast p).clk = s.clk := rfl
@[simp] theorem State.withPast_sched (s : State) (p : Past) : (s.withPast p).sched = s.sched := rfl
@[simp] theorem State.withPast_pend (s : State) (p : Past) : (s.withPast p).pend = s.pend := rfl
@[simp] theorem State.withPast_dma (s : State) (p : Past) : (s.withPast p).dma = s.dma := rfl
@[simp] theorem State.withPast_sasi (s : State) (p : Past) : (s.withPast p).sasi = s.sasi := rfl
@[simp] theorem State.withPast_fdd (s : State) (p : Past) : (s.withPast p).fdd = s.fdd := rfl
@[simp] theorem State.withPast_rtc (s : State) (p : Past) : (s.withPast p).rtc = s.rtc := rfl
@[simp] theorem State.withPast_sramWe (s : State) (p : Past) : (s.withPast p).sramWe = s.sramWe := rfl
@[simp] theorem State.withPast_sram (s : State) (p : Past) : (s.withPast p).sram = s.sram := rfl
@[simp] theorem State.withPast_ram (s : State) (p : Past) : (s.withPast p).ram = s.ram := rfl
@[simp] theorem State.withPast_store (s : State) (p : Past) : (s.withPast p).store = s.store := rfl
@[simp] theorem State.withPast_cfg (s : State) (p : Past) : (s.withPast p).cfg = s.cfg := rfl
@[simp] theorem State.withPast_alive (s : State) (p : Past) : (s.withPast p).alive = s.alive := rfl
@[simp] theorem State.withPast_queue (s : State) (p : Past) : (s.withPast p).queue = s.queue := rfl
@[simp] theorem State.withPast_inputs (s : State) (p : Past) : (s.withPast p).inputs = s.inputs := rfl

theorem State.call_withPast (s : State) (p : Past) (c : Call) : (s.withPast p).call c = (s.call c).withPast p := rfl

theorem State.emit_withPast (s : State) (p : Past) (o : OutEvent) :
    (s.withPast p).emit o = (s.emit o).withPast p := rfl

theorem State.drew_withPast (s : State) (p : Past) (i : Inputs) :
    (s.withPast p).drew i = (s.drew i).withPast p := rfl

theorem State.withSasi_withPast (s : State) (p : Past) (d : Sasi) :
    (s.withPast p).withSasi d = (s.withSasi d).withPast p := rfl

theorem State.enterStatus_withPast (s : State) (p : Past) :
    (s.withPast p).enterStatus = s.enterStatus.withPast p := rfl

theorem State.endCommand_withPast (s : State) (p : Past) (b : Byte) :
    (s.withPast p).endCommand b = (s.endCommand b).withPast p := rfl

theorem State.failCommand_withPast (s : State) (p : Past) (b : Byte) :
    (s.withPast p).failCommand b = (s.failCommand b).withPast p := rfl

theorem State.unitImage_withPast (s : State) (p : Past) : (s.withPast p).unitImage = s.unitImage := rfl

theorem State.imgRead_withPast (s : State) (p : Past) (h : Option Handle) (off n : Nat) :
    (s.withPast p).imgRead h off n = s.imgRead h off n := rfl

theorem State.imgOk_withPast (s : State) (p : Past) (h : Option Handle) (off n : Nat) :
    (s.withPast p).imgOk h off n = s.imgOk h off n := rfl

theorem State.imgWrite_withPast (s : State) (p : Past) (h : Option Handle) (off : Nat) (bs : List Byte) :
    (s.withPast p).imgWrite h off bs = ((s.imgWrite h off bs).1, (s.imgWrite h off bs).2.withPast p) := by
  have e : (s.withPast p).image? h = s.image? h := rfl
  unfold State.imgWrite
  rw [e]
  split
  · split <;> rfl
  · rfl

theorem State.requestPerByte_withPast (s : State) (p : Past) :
    (s.withPast p).requestPerByte = s.requestPerByte.withPast p := by
  unfold State.requestPerByte
  rw [State.withPast_cfg]
  cases s.cfg.sasiIrqPerByte <;> rfl

theorem State.byteMoved_withPast (s : State) (p : Past) :
    (s.withPast p).byteMoved = s.byteMoved.withPast p := by
  unfold State.byteMoved
  rw [State.withPast_sasi, State.withSasi_withPast, State.requestPerByte_withPast]

theorem State.blockRead_withPast (s : State) (p : Past) :
    (s.withPast p).blockRead = s.blockRead.withPast p := by
  unfold State.blockRead
  rw [State.imgRead_withPast, State.unitImage_withPast, State.withPast_sasi, State.withPast_cfg]
  by_cases h : s.sasi.blocks = 0
  · rw [if_pos h, if_pos h]; rfl
  · rw [if_neg h, if_neg h]
    cases s.imgRead s.unitImage s.sasi.offset 256 <;> rfl

theorem State.datain_withPast (s : State) (p : Past) : (s.withPast p).datain = s.datain.withPast p := by
  unfold State.datain State.nextBlockIn
  rw [State.byteMoved_withPast, State.withPast_sasi, State.withSasi_withPast, State.blockRead_withPast]
  by_cases h : s.byteMoved.sasi.bufptr = 256
  · rw [if_pos h, if_pos h]
  · rw [if_neg h, if_neg h]

theorem State.sensebyte_withPast (s : State) (p : Past) :
    (s.withPast p).sensebyte = s.sensebyte.withPast p := by
  unfold State.sensebyte
  rw [State.withPast_sasi]
  by_cases h : (s.sasi.senseptr + 1).toNat = Config.sasiSenseLen
  · dsimp only; rw [if_pos h, if_pos h]; rfl
  · dsimp only; rw [if_neg h, if_neg h]; rfl

theorem State.vendorbyte_withPast (s : State) (p : Past) :
    (s.withPast p).vendorbyte = s.vendorbyte.withPast p := by
  unfold State.vendorbyte
  rw [State.withPast_sasi]
  by_cases h : (s.sasi.vptr + 1).toNat = Config.sasiVendorLen
  · dsimp only; rw [if_pos h, if_pos h]; rfl
  · dsimp only; rw [if_neg h, if_neg h]; rfl

theorem State.sasiDataRd_withPast (s : State) (p : Past) :
    (s.withPast p).sasiDataRd = (s.sasiDataRd.1, s.sasiDataRd.2.withPast p) := by
  unfold State.sasiDataRd
  rw [State.withPast_sasi, State.datain_withPast, State.sensebyte_withPast]
  cases phaseOpOf false s.sasi.phase s.sasi.rw <;> rfl

theorem State.runCommand_withPast (s : State) (p : Past) (op : CmdOp) :
    (s.withPast p).runCommand op = (s.runCommand op).withPast p := by
  cases op
  · unfold State.runCommand State.testReady
    dsimp only
    rw [State.unitImage_withPast]
    by_cases h : s.unitImage.isSome = true
    · rw [if_pos h, if_pos h]; rfl
    · rw [if_neg h, if_neg h]; rfl
  · unfold State.runCommand State.recalibrate
    dsimp only
    rw [State.unitImage_withPast]
    by_cases h : s.unitImage.isSome = true
    · rw [if_pos h, if_pos h]; rfl
    · rw [if_neg h, if_neg h]; rfl
  · rfl
  · rfl
  · unfold State.runCommand State.readBlocks State.startRead
    dsimp only
    rw [State.withPast_sasi, State.withSasi_withPast, State.unitImage_withPast, State.withPast_sasi,
      State.imgRead_withPast, State.withPast_cfg]
    by_cases h : (s.withSasi (s.sasi.beginTransfer true)).unitImage.isNone = true
    · rw [if_pos h, if_pos h]; rfl
    · rw [if_neg h, if_neg h]
      cases State.imgRead _ _ _ _ <;> rfl
  · unfold State.runCommand State.writeBlocks State.startWrite
    dsimp only
    rw [State.withPast_sasi, State.withSasi_withPast, State.unitImage_withPast, State.withPast_sasi,
      State.imgOk_withPast, State.withPast_cfg]
    by_cases h : (s.withSasi (s.sasi.beginTransfer false)).unitImage.isNone = true
    · rw [if_pos h, if_pos h]; rfl
    · rw [if_neg h, if_neg h]
      cases State.imgOk _ _ _ _ <;> rfl
  · unfold State.runCommand State.seekUnit
    dsimp only
    rw [State.unitImage_withPast]
    by_cases h : s.unitImage.isSome = true
    · rw [if_pos h, if_pos h]; rfl
    · rw [if_neg h, if_neg h]; rfl
  · rfl
  · rfl

theorem State.cmdbyte_withPast (s : State) (p : Past) (v : Byte) :
    (s.withPast p).cmdbyte v = (s.cmdbyte v).withPast p := by
  unfold State.cmdbyte
  rw [State.withPast_sasi]
  by_cases h : s.sasi.cmdptr + 1 = 6
  · dsimp only
    rw [if_pos h, if_pos h, State.withSasi_withPast]
    unfold State.sasiExecute State.latchUnit
    rw [State.withPast_sasi, State.withSasi_withPast, State.runCommand_withPast]
  · dsimp only; rw [if_neg h, if_neg h]; rfl

theorem State.blockWritten_withPast (s : State) (p : Past) :
    (s.withPast p).blockWritten = s.blockWritten.withPast p := by
  unfold State.blockWritten
  rw [State.imgOk_withPast, State.unitImage_withPast, State.withPast_sasi, State.withPast_cfg]
  by_cases h : s.sasi.blocks = 0
  · rw [if_pos h, if_pos h]; rfl
  · rw [if_neg h, if_neg h]
    cases s.imgOk s.unitImage s.sasi.offset 256 <;> rfl

theorem State.nextBlockOut_withPast (s : State) (p : Past) :
    (s.withPast p).nextBlockOut = s.nextBlockOut.withPast p := by
  unfold State.nextBlockOut State.flush
  rw [State.withPast_sasi, State.withSasi_withPast, State.imgWrite_withPast, State.unitImage_withPast,
    State.withPast_sasi]
  generalize State.imgWrite _ _ _ _ = q
  obtain ⟨ok, t⟩ := q
  cases ok
  · rfl
  · simp only [State.flushed, if_true, State.withPast_sasi, State.withSasi_withPast, State.blockWritten_withPast]

theorem State.dataout_withPast (s : State) (p : Past) (v : Byte) :
    (s.withPast p).dataout v = (s.dataout v).withPast p := by
  have e : (s.withPast p).bufferByte v = (s.bufferByte v).withPast p := rfl
  unfold State.dataout
  rw [e, State.byteMoved_withPast, State.withPast_sasi, State.nextBlockOut_withPast]
  by_cases h : (s.bufferByte v).byteMoved.sasi.bufptr = 256
  · rw [if_pos h, if_pos h]
  · rw [if_neg h, if_neg h]

theorem State.sasiDataWr_withPast (s : State) (p : Past) (v : Byte) :
    (s.withPast p).sasiDataWr v = (s.sasiDataWr v).withPast p := by
  unfold State.sasiDataWr
  rw [State.withPast_sasi, State.cmdbyte_withPast, State.dataout_withPast, State.vendorbyte_withPast]
  cases phaseOpOf true s.sasi.phase s.sasi.rw <;> rfl

theorem State.dmaStart_withPast (s : State) (p : Past) (c : BitVec 2) (src dst : Addr) (n : BitVec 16)
    (ss ds : BitVec 2) :
    (s.withPast p).dmaStart c src dst n ss ds = (s.dmaStart c src dst n ss ds).withPast p := by
  unfold State.dmaStart
  cases channelOf c with
  | none => rfl
  | some ch =>
    have e : (s.withPast p).channel ch = s.channel ch := rfl
    simp only [State.startChannel, e]
    by_cases h : (s.channel ch).active = true ∨ n = 0
    · rw [if_pos h, if_pos h]
    · rw [if_neg h, if_neg h]; rfl

theorem State.fddReadSector_withPast (s : State) (p : Past) (d lba : Nat) :
    (s.withPast p).fddReadSector d lba = ((s.fddReadSector d lba).1, (s.fddReadSector d lba).2.withPast p) := by
  have e : (s.withPast p).sectorImage d = s.sectorImage d := rfl
  unfold State.fddReadSector
  rw [e]
  cases s.sectorImage d <;> rfl

theorem State.fddWriteSector_withPast (s : State) (p : Past) (d lba : Nat) (bs : List Byte) :
    (s.withPast p).fddWriteSector d lba bs =
      ((s.fddWriteSector d lba bs).1, (s.fddWriteSector d lba bs).2.withPast p) := by
  have e : (s.withPast p).sectorImage d = s.sectorImage d := rfl
  unfold State.fddWriteSector
  rw [e]
  cases s.sectorImage d with
  | none => rfl
  | some h => exact State.imgWrite_withPast _ _ _ _ _

theorem State.applyEvent_withPast (s : State) (p : Past) (e : ExtEvent) :
    (s.withPast p).applyEvent e = (s.applyEvent e).withPast p := by
  cases e with
  | irqRequest src => rfl
  | fastclrRequest => rfl
  | fddReadSector d lba => simp only [State.applyEvent, State.fddReadSector_withPast]; rfl
  | fddWriteSector d lba bs => simp only [State.applyEvent, State.fddWriteSector_withPast]; rfl
  | dmaStart c src dst n ss ds => exact State.dmaStart_withPast s p c src dst n ss ds

theorem State.foldl_withPast {α : Type} {f : State → α → State} {p : Past}
    (h : ∀ s a, f (s.withPast p) a = (f s a).withPast p) (l : List α) (s : State) :
    l.foldl f (s.withPast p) = (l.foldl f s).withPast p := by
  induction l generalizing s with
  | nil => rfl
  | cons x xs ih => rw [List.foldl_cons, List.foldl_cons, h, ih]

theorem State.drawEvents_withPast (s : State) (p : Past) (allows : ExtEvent → Bool) :
    (s.withPast p).drawEvents allows = (s.drawEvents allows).withPast p :=
  State.foldl_withPast (f := State.applyEvent) (fun s e => State.applyEvent_withPast s p e)
    (s.nextExtEvents.filter allows) s.drewExtEvents

theorem State.extRead_withPast (s : State) (p : Past) (a : Addr) :
    (s.withPast p).extRead a = ((s.extRead a).1, (s.extRead a).2.withPast p) := by
  have e : (s.withPast p).extForwardRead a = (s.extForwardRead a).withPast p :=
    State.drawEvents_withPast (s.call (.extRead a)) p _
  unfold State.extRead
  rw [e]
  rfl

theorem State.extWrite_withPast (s : State) (p : Past) (a : Addr) (v : Byte) :
    (s.withPast p).extWrite a v = (s.extWrite a v).withPast p :=
  State.drawEvents_withPast (s.call (.extWrite a v)) p _

theorem State.rtcRead_withPast (s : State) (p : Past) (a : Addr) :
    (s.withPast p).rtcRead a = ((s.rtcRead a).1, (s.rtcRead a).2.withPast p) := by
  unfold State.rtcRead
  rw [State.withPast_rtc]
  cases s.rtc.isLive (rtcIndex a) <;> rfl

/-- A byte read answers and does the same whatever the operation before it returned. -/
theorem State.busRd8_withPast (s : State) (p : Past) (a : Addr) :
    (s.withPast p).busRd8 a = ((s.busRd8 a).1, (s.busRd8 a).2.withPast p) := by
  unfold State.busRd8
  rw [State.withPast_cfg, State.sasiDataRd_withPast, State.rtcRead_withPast, State.extRead_withPast]
  cases portDecode s.cfg.map false a <;> rfl

theorem State.ramWrite_withPast (s : State) (p : Past) (a : Addr) (v : Byte) :
    (s.withPast p).ramWrite a v = (s.ramWrite a v).withPast p := by
  unfold State.ramWrite
  rw [State.withPast_cfg]
  by_cases h : a.toNat < s.cfg.ramSize
  · rw [if_pos h, if_pos h]; rfl
  · rw [if_neg h, if_neg h]

theorem State.sramWrite_withPast (s : State) (p : Past) (a : Addr) (v : Byte) :
    (s.withPast p).sramWrite a v = (s.sramWrite a v).withPast p := by
  unfold State.sramWrite
  rw [State.withPast_cfg, State.withPast_sramWe]
  by_cases h : s.sramWe = true ∧ offsetAt s.cfg.map a < sramSize
  · rw [if_pos h, if_pos h]; rfl
  · rw [if_neg h, if_neg h]

theorem State.sasiSelect_withPast (s : State) (p : Past) (v : Byte) :
    (s.withPast p).sasiSelect v = (s.sasiSelect v).withPast p := by
  unfold State.sasiSelect
  rw [State.withPast_sasi, State.withPast_cfg]
  cases s.sasi.phase <;> cases lowestBit v <;> try rfl
  rename_i d
  dsimp only
  cases deviceConfigured s.cfg d <;> rfl

theorem State.sasiAcksel_withPast (s : State) (p : Past) :
    (s.withPast p).sasiAcksel = s.sasiAcksel.withPast p := by
  unfold State.sasiAcksel
  rw [State.withPast_sasi]
  by_cases h : s.sasi.phase = .selection
  · rw [if_pos h, if_pos h]; rfl
  · rw [if_neg h, if_neg h]

/-- A byte write does the same whatever the operation before it returned. -/
theorem State.busWr8_withPast (s : State) (p : Past) (a : Addr) (v : Byte) :
    (s.withPast p).busWr8 a v = (s.busWr8 a v).withPast p := by
  unfold State.busWr8
  rw [State.withPast_cfg, State.sasiDataWr_withPast, State.sasiAcksel_withPast, State.sasiSelect_withPast,
    State.ramWrite_withPast, State.sramWrite_withPast, State.extWrite_withPast]
  cases portDecode s.cfg.map true a <;> rfl

/-! ### The composed accesses, DMA, the frame -/

theorem State.busRd16_withPast (s : State) (p : Past) (a : Addr) :
    (s.withPast p).busRd16 a = ((s.busRd16 a).1, (s.busRd16 a).2.withPast p) := by
  simp only [State.busRd16, State.busRd8_withPast]

theorem State.busRd32_withPast (s : State) (p : Past) (a : Addr) :
    (s.withPast p).busRd32 a = ((s.busRd32 a).1, (s.busRd32 a).2.withPast p) := by
  simp only [State.busRd32, State.busRd8_withPast]

theorem State.busWr16_withPast (s : State) (p : Past) (a : Addr) (v : BitVec 16) :
    (s.withPast p).busWr16 a v = (s.busWr16 a v).withPast p := by
  simp only [State.busWr16, State.busWr8_withPast]

theorem State.busWr32_withPast (s : State) (p : Past) (a : Addr) (v : BitVec 32) :
    (s.withPast p).busWr32 a v = (s.busWr32 a v).withPast p := by
  simp only [State.busWr32, State.busWr8_withPast]

theorem State.channel_withPast (s : State) (p : Past) (c : Fin 3) : (s.withPast p).channel c = s.channel c := rfl

theorem State.withChannel_withPast (s : State) (p : Past) (c : Fin 3) (ch : DmaChannel) :
    (s.withPast p).withChannel c ch = (s.withChannel c ch).withPast p := rfl

theorem State.withCredit_withPast (s : State) (p : Past) (c : Fin 3) (n : Nat) :
    (s.withPast p).withCredit c n = (s.withCredit c n).withPast p := rfl

theorem State.ready_withPast (s : State) (p : Past) (c : Fin 3) (line : Bool) :
    (s.withPast p).ready c line = s.ready c line := rfl

theorem State.sampledReady_withPast (s : State) (p : Past) (c : Fin 3) :
    (s.withPast p).sampledReady c = (s.sampledReady c).withPast p := by
  unfold State.sampledReady
  rw [State.withPast_cfg]
  split <;> rfl

theorem State.completeChannel_withPast (s : State) (p : Past) (c : Fin 3) :
    (s.withPast p).completeChannel c = (s.completeChannel c).withPast p := rfl

theorem State.moveByte_withPast (s : State) (p : Past) (c : Fin 3) :
    (s.withPast p).moveByte c = (s.moveByte c).withPast p := by
  simp only [State.moveByte, State.channel_withPast, State.busRd8_withPast, State.busWr8_withPast]

theorem State.dmaXfer_withPast (s : State) (p : Past) (c : Fin 3) :
    (s.withPast p).dmaXfer c = (s.dmaXfer c).withPast p := by
  unfold State.dmaXfer State.stepChannel State.completeIfDone
  rw [State.moveByte_withPast, State.channel_withPast, State.withChannel_withPast, State.channel_withPast]
  split <;> rfl

theorem State.dmaLoop_withPast (c : Fin 3) (line : Bool) (n : Nat) (s : State) (p : Past) :
    State.dmaLoop c line n (s.withPast p) = (State.dmaLoop c line n s).withPast p := by
  induction n generalizing s with
  | zero => rfl
  | succ n ih =>
    have e : (s.withPast p).dmaCost c = s.dmaCost c := rfl
    simp only [State.dmaLoop, State.channel_withPast, State.ready_withPast, e, State.withCredit_withPast,
      State.dmaXfer_withPast, ih]
    split <;> rfl

theorem State.settleCredit_withPast (s : State) (p : Past) (c : Fin 3) (line : Bool) :
    (s.withPast p).settleCredit c line = (s.settleCredit c line).withPast p := by
  unfold State.settleCredit
  rw [State.channel_withPast, State.ready_withPast, State.withCredit_withPast]
  split <;> rfl

theorem State.dmaTurn_withPast (s : State) (p : Past) (c : Fin 3) (line : Bool) (used : Nat) :
    (s.withPast p).dmaTurn c line used = (s.dmaTurn c line used).withPast p := by
  unfold State.dmaTurn State.dmaPaced
  rw [State.channel_withPast, State.ready_withPast, State.withCredit_withPast, State.dmaLoop_withPast]
  split <;> rw [State.settleCredit_withPast]

theorem State.dmaStep_withPast (s : State) (p : Past) (c : Fin 3) (used : Nat) :
    (s.withPast p).dmaStep c used = (s.dmaStep c used).withPast p := by
  have e : (s.withPast p).nextReady = s.nextReady := rfl
  unfold State.dmaStep
  rw [State.channel_withPast, e, State.sampledReady_withPast, State.dmaTurn_withPast, State.dmaTurn_withPast]
  split <;> rfl

theorem State.rtcTick_withPast (s : State) (p : Past) (used : Nat) :
    (s.withPast p).rtcTick used = (s.rtcTick used).withPast p := by
  unfold State.rtcTick
  rw [State.withPast_rtc, State.withPast_cfg]
  dsimp only
  split <;> rfl

theorem State.timersTick_withPast (s : State) (p : Past) (used : Nat) :
    (s.withPast p).timersTick used = (s.timersTick used).withPast p := by
  unfold State.timersTick
  rw [State.rtcTick_withPast, State.emit_withPast, State.drawEvents_withPast, State.withPast_cfg]

theorem State.backendOp_withPast (s : State) (p : Past) (op : BackendOp) :
    (s.withPast p).backendOp op = (s.backendOp op).withPast p := by
  cases op with
  | rd8 a => simp only [State.backendOp, State.busRd8_withPast]; rfl
  | wr8 a v => exact State.busWr8_withPast s p a v
  | rd16 a => simp only [State.backendOp, State.busRd16_withPast]; rfl
  | wr16 a v => exact State.busWr16_withPast s p a v
  | rd32 a => simp only [State.backendOp, State.busRd32_withPast]; rfl
  | wr32 a v => exact State.busWr32_withPast s p a v
  | dmaStart c src dst n ss ds => exact State.dmaStart_withPast s p c src dst n ss ds

theorem State.resolve_withPast (s : State) (p : Past) :
    (s.withPast p).resolve = (s.resolve.1, s.resolve.2.withPast p) := by
  unfold State.resolve
  rw [State.withPast_cfg, State.withPast_pend]
  cases highestPending s.cfg s.pend <;> rfl

theorem State.execute_withPast (s : State) (p : Past) (req : Nat) (irq : Option (Src × Byte)) :
    (s.withPast p).execute req irq = ((s.execute req irq).1, (s.execute req irq).2.withPast p) :=
  Prod.ext rfl (State.foldl_withPast (fun s op => State.backendOp_withPast s p op) s.nextBackend.ops
    (s.drewBackend.call (.cpuExecute req irq)))

theorem State.afterBackend_withPast (s : State) (p : Past) (n : Nat) :
    (s.withPast p).afterBackend n = (s.afterBackend n).withPast p := by
  have e : (s.withPast p).account n = (s.account n).withPast p := rfl
  have k : ∀ t : State, (t.withPast p).sliceOrEnd = t.sliceOrEnd.withPast p := fun _ => rfl
  unfold State.afterBackend
  simp only [e, k, State.withPast_clk, State.withPast_cfg, State.dmaStep_withPast, State.timersTick_withPast]

/-- A slice does the same whatever went out before it. -/
theorem State.slice_withPast (s : State) (p : Past) : (s.withPast p).slice = s.slice.withPast p := by
  have e : (s.withPast p).sliceRequest = s.sliceRequest := rfl
  unfold State.slice
  simp only [State.resolve_withPast, e, State.execute_withPast, State.afterBackend_withPast]

theorem State.requestIf_withPast (s : State) (p : Past) (b : Bool) (src : Src) :
    (s.withPast p).requestIf b src = (s.requestIf b src).withPast p := by
  cases b <;> rfl

theorem State.lineStart_withPast (s : State) (p : Past) (m : VideoMode) :
    (s.withPast p).lineStart m = (s.lineStart m).withPast p := by
  have hc : { s.withPast p with clk := { (s.withPast p).clk with lineused := 0 } } =
      ({ s with clk := { s.clk with lineused := 0 } } : State).withPast p := rfl
  have hr : ∀ t : State, (t.withPast p).drewRasterLine = t.drewRasterLine.withPast p := fun _ => rfl
  have hn : ∀ t : State, (t.withPast p).nextRasterLine = t.nextRasterLine := fun _ => rfl
  have k : ∀ t : State, (t.withPast p).sliceOrEnd = t.sliceOrEnd.withPast p := fun _ => rfl
  unfold State.lineStart
  dsimp only
  rw [hc, State.withPast_clk, State.requestIf_withPast, State.requestIf_withPast, hr, hn,
    State.requestIf_withPast, k]

theorem State.nextLine_withPast (s : State) (p : Past) : (s.withPast p).nextLine = s.nextLine.withPast p := by
  unfold State.nextLine
  rw [State.withPast_clk]
  split <;> rfl

theorem State.lineEnd_withPast (s : State) (p : Past) : (s.withPast p).lineEnd = s.lineEnd.withPast p := by
  have hr : (if s.sched.render then (s.withPast p).emit (.scanline s.clk.line) else s.withPast p) =
      (if s.sched.render then s.emit (.scanline s.clk.line) else s).withPast p := by split <;> rfl
  unfold State.lineEnd
  dsimp only
  rw [State.withPast_sched, State.withPast_clk, State.withPast_cfg, hr]
  generalize (if s.sched.render then s.emit (.scanline s.clk.line) else s) = u
  generalize pollCount s.sched.keyCnt _ = key
  generalize pollCount s.sched.mouseCnt _ = mouse
  have hs : { u.withPast p with sched := { (u.withPast p).sched with keyCnt := key.1, mouseCnt := mouse.1 } } =
      ({ u with sched := { u.sched with keyCnt := key.1, mouseCnt := mouse.1 } } : State).withPast p := rfl
  rw [hs, State.requestIf_withPast, State.requestIf_withPast, State.emit_withPast, State.nextLine_withPast]

theorem State.fastclrCounted_withPast (s : State) (p : Past) :
    (s.withPast p).fastclrCounted = s.fastclrCounted.withPast p := by
  unfold State.fastclrCounted
  rw [State.withPast_sched]
  split <;> rfl

theorem State.fastclrResolve_withPast (s : State) (p : Past) (m : VideoMode) :
    (s.withPast p).fastclrResolve m = (s.fastclrResolve m).withPast p := by
  unfold State.fastclrResolve
  rw [State.withPast_sched, State.fastclrCounted_withPast]
  split <;> rfl

theorem State.frameskipAdapt_withPast (s : State) (p : Past) (m : VideoMode) (ms : BitVec 32) :
    (s.withPast p).frameskipAdapt m ms = (s.frameskipAdapt m ms).withPast p := by
  unfold State.frameskipAdapt
  rw [State.call_withPast]
  dsimp only
  split <;> rfl

theorem State.frameEnd_withPast (s : State) (p : Past) (m : VideoMode) :
    (s.withPast p).frameEnd m = (s.frameEnd m).withPast p := by
  unfold State.frameEnd
  rw [State.fastclrResolve_withPast]
  generalize s.fastclrResolve m = u
  exact congrArg (fun t : State => { t with sched := { t.sched with seq := .idle } })
    (State.frameskipAdapt_withPast
      (({ u with clk := { u.clk with carry := u.clk.overrun, line := 0 } } : State).emit
          (.frameDone u.sched.render)).drewElapsedMs p m _)

/-- A frame does the same whatever went out before it. -/
theorem State.frameLoop_withPast (m : VideoMode) (n : Nat) (s : State) (p : Past) :
    State.frameLoop m n (s.withPast p) = (State.frameLoop m n s).map (·.withPast p) := by
  induction n generalizing s with
  | zero =>
    rw [State.frameLoop, State.frameLoop, State.withPast_sched]
    split <;> rfl
  | succ n ih =>
    have k : (s.withPast p).microStep m = (s.microStep m).withPast p := by
      unfold State.microStep
      rw [State.withPast_sched]
      split
      · rfl
      · exact State.lineStart_withPast s p m
      · exact State.slice_withPast s p
      · exact State.lineEnd_withPast s p
      · exact State.frameEnd_withPast s p m
    rw [State.frameLoop, State.frameLoop, State.withPast_sched, k, ih]
    split <;> rfl

/-! ### What the operation before returned -/

theorem State.busRd8_returning (s : State) (r : Result) (a : Addr) :
    (s.returning r).busRd8 a = ((s.busRd8 a).1, (s.busRd8 a).2.returning r) := by
  rw [State.returning_eq_withPast, State.busRd8_withPast, ← State.returning_eq_withPast]

theorem State.busWr8_returning (s : State) (r : Result) (a : Addr) (v : Byte) :
    (s.returning r).busWr8 a v = (s.busWr8 a v).returning r := by
  rw [State.returning_eq_withPast, State.busWr8_withPast, ← State.returning_eq_withPast]

theorem State.dmaXfer_returning (s : State) (r : Result) (c : Fin 3) :
    (s.returning r).dmaXfer c = (s.dmaXfer c).returning r := by
  rw [State.returning_eq_withPast, State.dmaXfer_withPast, ← State.returning_eq_withPast]

theorem State.dmaStep_returning (s : State) (r : Result) (c : Fin 3) (used : Nat) :
    (s.returning r).dmaStep c used = (s.dmaStep c used).returning r := by
  rw [State.returning_eq_withPast, State.dmaStep_withPast, ← State.returning_eq_withPast]

theorem State.timersTick_returning (s : State) (r : Result) (used : Nat) :
    (s.returning r).timersTick used = (s.timersTick used).returning r := by
  rw [State.returning_eq_withPast, State.timersTick_withPast, ← State.returning_eq_withPast]

theorem State.backendOps_returning (s : State) (r : Result) (ops : List BackendOp) :
    ops.foldl State.backendOp (s.returning r) = (ops.foldl State.backendOp s).returning r := by
  rw [State.returning_eq_withPast, State.foldl_withPast (fun s op => State.backendOp_withPast s _ op),
    ← State.returning_eq_withPast]

end Sys2Proof.Machine
end

