-- ==== Sys2Proof/Laws/Invariant.lean ====
section
/-! SUPPORT. The shared operations of the bus, the devices, DMA and the timers keep the invariant. -/

namespace Sys2Proof.Machine

theorem Sasi.valid_iff (d : Sasi) :
    d.valid = true ↔ d.cmdptr.toNat ≤ 5 ∧ d.bufptr.toNat ≤ 255 ∧ d.senseptr.toNat ≤ 3 ∧ d.vptr.toNat ≤ 9 ∧
      (d.device.toNat ≤ 7 ∨ d.device = 0x7F) := by
  simp [Sasi.valid]

/-- A change of the SASI registers and `irq.pend` keeps the invariant where the registers stay in range. -/
theorem State.Inv.onlySasi {s t : State} (h : s.Inv) (k : OnlySasi s t) (hd : t.sasi.valid = true) : t.Inv := by
  obtain ⟨d, p, rfl⟩ := k
  exact ⟨h.cfg, h.ram, h.sram, h.store, h.drives, h.channels, hd, h.skipq⟩

theorem State.Inv.call {s : State} (h : s.Inv) (c : Call) : (s.call c).Inv :=
  ⟨h.cfg, h.ram, h.sram, h.store, h.drives, h.channels, h.sasi, h.skipq⟩

theorem State.Inv.emit {s : State} (h : s.Inv) (e : OutEvent) : (s.emit e).Inv :=
  ⟨h.cfg, h.ram, h.sram, h.store, h.drives, h.channels, h.sasi, h.skipq⟩

theorem State.Inv.returning {s : State} (h : s.Inv) (r : Result) : (s.returning r).Inv :=
  ⟨h.cfg, h.ram, h.sram, h.store, h.drives, h.channels, h.sasi, h.skipq⟩

theorem State.Inv.drew {s : State} (h : s.Inv) (i : Inputs) : (s.drew i).Inv :=
  ⟨h.cfg, h.ram, h.sram, h.store, h.drives, h.channels, h.sasi, h.skipq⟩

theorem State.Inv.requestSrc {s : State} (h : s.Inv) (src : Src) : (s.requestSrc src).Inv :=
  ⟨h.cfg, h.ram, h.sram, h.store, h.drives, h.channels, h.sasi, h.skipq⟩

theorem State.Inv.withSasi {s : State} (h : s.Inv) {d : Sasi} (hd : d.valid = true) : (s.withSasi d).Inv :=
  ⟨h.cfg, h.ram, h.sram, h.store, h.drives, h.channels, hd, h.skipq⟩

/-! ### The SASI controller -/

theorem State.Inv.enterStatus {s : State} (h : s.Inv) : s.enterStatus.Inv :=
  h.onlySasi (OnlySasi.enterStatus s) h.sasi

theorem State.Inv.endCommand {s : State} (h : s.Inv) (b : Byte) : (s.endCommand b).Inv :=
  h.onlySasi (OnlySasi.endCommand s b) h.sasi

theorem State.Inv.failCommand {s : State} (h : s.Inv) (b : Byte) : (s.failCommand b).Inv :=
  h.onlySasi (OnlySasi.failCommand s b) h.sasi

theorem State.Inv.violate {s : State} (h : s.Inv) : s.violate.Inv := by
  refine h.onlySasi (OnlySasi.violate s) ?_
  have hd := (Sasi.valid_iff _).1 h.sasi
  exact (Sasi.valid_iff _).2 ⟨by simp [State.violate, State.failCommand, State.enterStatus],
    by simp [State.violate, State.failCommand, State.enterStatus],
    by simp [State.violate, State.failCommand, State.enterStatus],
    by simp [State.violate, State.failCommand, State.enterStatus], hd.2.2.2.2⟩

theorem State.Inv.requestPerByte {s : State} (h : s.Inv) : s.requestPerByte.Inv := by
  unfold State.requestPerByte
  split
  · exact h.requestSrc _
  · exact h

theorem State.Inv.sasiReset {s : State} (h : s.Inv) : s.sasiReset.Inv := h.withSasi (by decide)

theorem State.Inv.sasiAcksel {s : State} (h : s.Inv) : s.sasiAcksel.Inv := by
  unfold State.sasiAcksel
  have hd := (Sasi.valid_iff _).1 h.sasi
  split
  · exact h.withSasi ((Sasi.valid_iff _).2 ⟨by simp, hd.2⟩)
  · exact h

theorem State.Inv.sasiSelect {s : State} (h : s.Inv) (v : Byte) : (s.sasiSelect v).Inv := by
  unfold State.sasiSelect
  have hd := (Sasi.valid_iff _).1 h.sasi
  split
  · rename_i d _ _
    split
    · exact h.withSasi ((Sasi.valid_iff _).2 ⟨hd.1, hd.2.1, hd.2.2.1, hd.2.2.2.1, .inl (by
        have := d.isLt
        simp only [BitVec.toNat_ofNat]
        omega)⟩)
    · exact h
  · exact h

theorem State.Inv.startRead {s : State} (h : s.Inv) : s.startRead.Inv := by
  unfold State.startRead
  split
  · exact h.failCommand _
  · split
    · exact h.failCommand _
    · exact h.withSasi h.sasi

theorem State.Inv.startWrite {s : State} (h : s.Inv) : s.startWrite.Inv := by
  unfold State.startWrite
  split
  · exact h.failCommand _
  · split
    · exact h.withSasi h.sasi
    · exact h.failCommand _

theorem State.Inv.beginTransfer {s : State} (h : s.Inv) (b : Bool) :
    (s.withSasi (s.sasi.beginTransfer b)).Inv := by
  have hd := (Sasi.valid_iff _).1 h.sasi
  exact h.withSasi ((Sasi.valid_iff _).2 ⟨hd.1, by simp [Sasi.beginTransfer], hd.2.2⟩)

theorem State.Inv.runCommand {s : State} (h : s.Inv) (op : CmdOp) : (s.runCommand op).Inv := by
  have hd := (Sasi.valid_iff _).1 h.sasi
  cases op
  · unfold State.runCommand State.testReady
    dsimp only
    split
    · exact h.endCommand _
    · exact h.failCommand _
  · unfold State.runCommand State.recalibrate
    dsimp only
    split
    · exact State.Inv.endCommand (h.withSasi (d := { s.sasi with sector := 0 }) h.sasi) _
    · exact h.failCommand _
  · exact h.withSasi ((Sasi.valid_iff _).2 ⟨hd.1, hd.2.1, by simp, hd.2.2.2⟩)
  · exact h.endCommand _
  · exact (h.beginTransfer true).startRead
  · exact (h.beginTransfer false).startWrite
  · unfold State.runCommand State.seekUnit
    dsimp only
    split
    · exact h.endCommand _
    · exact h.failCommand _
  · exact h.withSasi ((Sasi.valid_iff _).2 ⟨hd.1, hd.2.1, hd.2.2.1, by simp, hd.2.2.2.2⟩)
  · exact h.failCommand _

theorem State.Inv.latchUnit {s : State} (h : s.Inv) : s.latchUnit.Inv := h.withSasi h.sasi

theorem State.Inv.withBlock {s : State} (h : s.Inv) (op : Byte) (b : Cdb) : (s.withBlock op b).Inv :=
  State.Inv.latchUnit (h.withSasi h.sasi)

theorem State.Inv.sasiExecute {s : State} (h : s.Inv) : s.sasiExecute.Inv := h.latchUnit.runCommand _

theorem State.Inv.cmdbyte {s : State} (h : s.Inv) (v : Byte) : (s.cmdbyte v).Inv := by
  have hd := (Sasi.valid_iff _).1 h.sasi
  unfold State.cmdbyte
  dsimp only
  split
  · exact State.Inv.sasiExecute (h.withSasi ((Sasi.valid_iff _).2 ⟨by simp, hd.2⟩))
  · rename_i hn
    refine h.withSasi ((Sasi.valid_iff _).2 ⟨?_, hd.2⟩)
    have h5 := hd.1
    dsimp only
    bv_omega

theorem State.Inv.blockRead {s : State} (h : s.Inv) : s.blockRead.Inv := by
  unfold State.blockRead
  split
  · exact h.enterStatus
  · split
    · exact h.failCommand _
    · exact h.withSasi h.sasi

theorem State.byteMoved_sasi (s : State) :
    s.byteMoved.sasi = { s.sasi with bufptr := s.sasi.bufptr + 1 } := by
  unfold State.byteMoved State.requestPerByte
  split <;> rfl

/-- A Data byte moved and the buffer pointer put back: the invariant holds again (10_state R19). -/
theorem State.Inv.byteMoved_rewound {s : State} (h : s.Inv) :
    (s.byteMoved.withSasi s.byteMoved.sasi.rewound).Inv := by
  have hv := (Sasi.valid_iff _).1 h.sasi
  have hr : s.byteMoved.sasi.rewound = { s.sasi with bufptr := 0 } := by
    rw [State.byteMoved_sasi, Sasi.rewound]
  rw [hr]
  obtain ⟨e, p, he⟩ := OnlySasi.byteMoved s
  rw [he]
  exact ⟨h.cfg, h.ram, h.sram, h.store, h.drives, h.channels,
    (Sasi.valid_iff _).2 ⟨hv.1, by simp, hv.2.2⟩, h.skipq⟩

theorem State.Inv.byteMoved {s : State} (h : s.Inv) (hn : s.byteMoved.sasi.bufptr ≠ 256) : s.byteMoved.Inv := by
  have hv := (Sasi.valid_iff _).1 h.sasi
  refine h.onlySasi (OnlySasi.byteMoved s) ?_
  rw [State.byteMoved_sasi] at hn ⊢
  refine (Sasi.valid_iff _).2 ⟨hv.1, ?_, hv.2.2⟩
  have := hv.2.1
  dsimp only at hn ⊢
  bv_omega

theorem State.Inv.datain {s : State} (h : s.Inv) : s.datain.Inv := by
  unfold State.datain State.nextBlockIn
  split
  · refine State.Inv.blockRead ?_
    have := h.byteMoved_rewound
    exact ⟨this.cfg, this.ram, this.sram, this.store, this.drives, this.channels, this.sasi, this.skipq⟩
  · exact h.byteMoved ‹_›

theorem State.Inv.imgWrite {s : State} (h : s.Inv) (k : Option Handle) (off : Nat) (bs : List Byte) :
    (s.imgWrite k off bs).2.Inv := by
  rcases s.imgWrite_spec k off bs with ⟨_, e⟩ | ⟨k, im, _, hf, hs, _, e⟩ <;> rw [e]
  · exact h
  · refine ⟨h.cfg, h.ram, h.sram, fun p hp => ?_, h.drives, h.channels, h.sasi, h.skipq⟩
    rcases mem_setImage hp with hp | hp
    · exact h.store p hp
    · rw [hp]
      exact Memory.writeRange_wf hs (h.store _ (findImage_mem hf))

theorem State.Inv.blockWritten {s : State} (h : s.Inv) : s.blockWritten.Inv := by
  unfold State.blockWritten
  split
  · exact h.enterStatus
  · split
    · exact h
    · exact h.failCommand _

theorem State.Inv.flushed {r : Bool × State} (h : r.2.Inv) : (State.flushed r).Inv := by
  unfold State.flushed
  split
  · exact State.Inv.blockWritten (h.withSasi h.sasi)
  · exact h.failCommand _

theorem State.Inv.dataout {s : State} (h : s.Inv) (v : Byte) : (s.dataout v).Inv := by
  have hb : (s.bufferByte v).Inv := h.withSasi h.sasi
  unfold State.dataout State.nextBlockOut
  split
  · exact State.Inv.flushed (State.Inv.imgWrite hb.byteMoved_rewound _ _ _)
  · exact hb.byteMoved ‹_›

theorem State.Inv.sensebyte {s : State} (h : s.Inv) : s.sensebyte.Inv := by
  have hd := (Sasi.valid_iff _).1 h.sasi
  unfold State.sensebyte
  dsimp only
  split
  · exact State.Inv.enterStatus (h.withSasi ((Sasi.valid_iff _).2 ⟨hd.1, hd.2.1, by simp, hd.2.2.2⟩))
  · rename_i hn
    refine h.withSasi ((Sasi.valid_iff _).2 ⟨hd.1, hd.2.1, ?_, hd.2.2.2⟩)
    have := hd.2.2.1
    simp only [Config.sasiSenseLen] at hn ⊢
    bv_omega

theorem State.Inv.vendorbyte {s : State} (h : s.Inv) : s.vendorbyte.Inv := by
  have hd := (Sasi.valid_iff _).1 h.sasi
  unfold State.vendorbyte
  dsimp only
  split
  · exact State.Inv.endCommand (h.withSasi (d := { s.sasi with vptr := 0 }) ((Sasi.valid_iff _).2 ⟨hd.1, hd.2.1, hd.2.2.1, by simp, hd.2.2.2.2⟩)) _
  · rename_i hn
    refine h.withSasi ((Sasi.valid_iff _).2 ⟨hd.1, hd.2.1, hd.2.2.1, ?_, hd.2.2.2.2⟩)
    have := hd.2.2.2.1
    simp only [Config.sasiVendorLen] at hn ⊢
    bv_omega

theorem State.Inv.sasiDataRd {s : State} (h : s.Inv) : s.sasiDataRd.2.Inv := by
  unfold State.sasiDataRd
  split
  · exact h.datain
  · exact h.withSasi h.sasi
  · have hd := (Sasi.valid_iff _).1 h.sasi
    exact h.withSasi ((Sasi.valid_iff _).2 ⟨hd.1, hd.2.1, hd.2.2.1, hd.2.2.2.1, .inr rfl⟩)
  · exact h.sensebyte
  · exact h.violate
  all_goals exact h

theorem State.Inv.sasiDataWr {s : State} (h : s.Inv) (v : Byte) : (s.sasiDataWr v).Inv := by
  unfold State.sasiDataWr
  split
  · exact h.cmdbyte v
  · exact h.dataout v
  · exact h.vendorbyte
  · exact h.violate
  all_goals exact h

/-! ### External devices, memory, the bus -/

/-- The channels of a state in which one channel is another. -/
theorem State.channel_withChannel (s : State) (c d : Fin 3) (ch : DmaChannel) :
    (s.withChannel c ch).channel d = if d = c then ch else s.channel d := by
  unfold State.channel State.withChannel
  rcases eq_or_ne d c with rfl | h
  · simp
  · rw [if_neg h]
    exact Vector.getElem_set_ne c.isLt d.isLt (fun e => h (Fin.ext e.symm))

theorem State.Inv.withChannel {s : State} (h : s.Inv) (c : Fin 3) {ch : DmaChannel}
    (hc : ch.active = true → ch.count ≠ 0) : (s.withChannel c ch).Inv := by
  refine ⟨h.cfg, h.ram, h.sram, h.store, h.drives, fun d => ?_, h.sasi, h.skipq⟩
  rw [State.channel_withChannel]
  split
  · exact hc
  · exact h.channels d

theorem State.Inv.startChannel {s : State} (h : s.Inv) (c : Fin 3) (src dst : Addr) (n : BitVec 16)
    (ss ds : BitVec 2) : (s.startChannel c src dst n ss ds).Inv := by
  unfold State.startChannel
  split
  · exact h
  · rename_i hn
    exact h.withChannel c fun _ => by simpa using (not_or.1 hn).2

theorem State.Inv.dmaStart {s : State} (h : s.Inv) (c : BitVec 2) (src dst : Addr) (n : BitVec 16)
    (ss ds : BitVec 2) : (s.dmaStart c src dst n ss ds).Inv := by
  unfold State.dmaStart
  split
  · exact h.startChannel _ _ _ _ _ _
  · exact h

theorem State.Inv.modifyDrive {s : State} (h : s.Inv) (d : Nat) (f : Fdd → Fdd) : (s.modifyDrive d f).Inv :=
  ⟨h.cfg, h.ram, h.sram, h.store, by simpa using h.drives, h.channels, h.sasi, h.skipq⟩

theorem State.Inv.fddReadSector {s : State} (h : s.Inv) (d lba : Nat) : (s.fddReadSector d lba).2.Inv := by
  unfold State.fddReadSector
  split
  · exact h
  · exact h.modifyDrive _ _

theorem State.Inv.fddWriteSector {s : State} (h : s.Inv) (d lba : Nat) (bs : List Byte) :
    (s.fddWriteSector d lba bs).2.Inv := by
  unfold State.fddWriteSector
  split
  · exact h
  · exact h.imgWrite _ _ _

theorem State.Inv.applyEvent {s : State} (h : s.Inv) (e : ExtEvent) : (s.applyEvent e).Inv := by
  cases e with
  | irqRequest src => exact h.requestSrc _
  | fastclrRequest => exact ⟨h.cfg, h.ram, h.sram, h.store, h.drives, h.channels, h.sasi, h.skipq⟩
  | fddReadSector d lba => exact (h.fddReadSector d lba).call _
  | fddWriteSector d lba bs => exact (h.fddWriteSector d lba bs).call _
  | dmaStart c src dst n ss ds => exact h.dmaStart _ _ _ _ _ _

theorem State.Inv.foldl {α : Type} {f : State → α → State} (hf : ∀ s a, s.Inv → (f s a).Inv) (l : List α)
    {s : State} (h : s.Inv) : (l.foldl f s).Inv := by
  induction l generalizing s with
  | nil => exact h
  | cons a l ih => exact ih (hf s a h)

theorem State.Inv.drawEvents {s : State} (h : s.Inv) (allows : ExtEvent → Bool) : (s.drawEvents allows).Inv :=
  State.Inv.foldl (fun _ _ h => h.applyEvent _) _ (h.drew _)

theorem State.Inv.extRead {s : State} (h : s.Inv) (a : Addr) : (s.extRead a).2.Inv :=
  ((h.call _).drawEvents _).drew _

theorem State.Inv.extWrite {s : State} (h : s.Inv) (a : Addr) (v : Byte) : (s.extWrite a v).Inv :=
  (h.call _).drawEvents _

theorem State.Inv.rtcRead {s : State} (h : s.Inv) (a : Addr) : (s.rtcRead a).2.Inv := by
  unfold State.rtcRead
  split
  · exact h.drew _
  · exact h

theorem State.Inv.ramWrite {s : State} (h : s.Inv) (a : Addr) (v : Byte) : (s.ramWrite a v).Inv := by
  unfold State.ramWrite
  split
  · exact ⟨h.cfg, Memory.write_wf ‹_› h.ram, h.sram, h.store, h.drives, h.channels, h.sasi, h.skipq⟩
  · exact h

theorem State.Inv.sramWrite {s : State} (h : s.Inv) (a : Addr) (v : Byte) : (s.sramWrite a v).Inv := by
  unfold State.sramWrite
  split
  · rename_i hc
    exact ⟨h.cfg, h.ram, Memory.write_wf hc.2 h.sram, h.store, h.drives, h.channels, h.sasi, h.skipq⟩
  · exact h

theorem State.Inv.busRd8 {s : State} (h : s.Inv) (a : Addr) : (s.busRd8 a).2.Inv := by
  unfold State.busRd8
  split
  · exact h.sasiDataRd
  · exact h
  · exact h.rtcRead a
  · exact h
  · exact h
  · exact h
  · exact h
  · exact h.extRead a
  all_goals exact h

theorem State.Inv.busWr8 {s : State} (h : s.Inv) (a : Addr) (v : Byte) : (s.busWr8 a v).Inv := by
  unfold State.busWr8
  split
  · exact h.sasiDataWr v
  · exact h.sasiAcksel
  · exact h.sasiReset
  · exact h.sasiSelect v
  · exact ⟨h.cfg, h.ram, h.sram, h.store, h.drives, h.channels, h.sasi, h.skipq⟩
  · exact ⟨h.cfg, h.ram, h.sram, h.store, h.drives, h.channels, h.sasi, h.skipq⟩
  · exact h.ramWrite a v
  · exact h.sramWrite a v
  · exact h.extWrite a v
  all_goals exact h

theorem State.Inv.busRd16 {s : State} (h : s.Inv) (a : Addr) : (s.busRd16 a).2.Inv := (h.busRd8 a).busRd8 _

theorem State.Inv.busWr16 {s : State} (h : s.Inv) (a : Addr) (v : BitVec 16) : (s.busWr16 a v).Inv :=
  (h.busWr8 a _).busWr8 _ _

theorem State.Inv.busRd32 {s : State} (h : s.Inv) (a : Addr) : (s.busRd32 a).2.Inv :=
  (((h.busRd8 a).busRd8 _).busRd8 _).busRd8 _

theorem State.Inv.busWr32 {s : State} (h : s.Inv) (a : Addr) (v : BitVec 32) : (s.busWr32 a v).Inv :=
  (((h.busWr8 a _).busWr8 _ _).busWr8 _ _).busWr8 _ _

/-! ### DMA, the backend, the timers -/

theorem State.Inv.completeChannel {s : State} (h : s.Inv) (c : Fin 3) : (s.completeChannel c).Inv :=
  State.Inv.call (h.withChannel c fun e => by simp at e) _

/-- `DMA.XFER` keeps the invariant: a count that reaches 0 ends the transfer in the same step (43_dma R148). -/
theorem State.Inv.dmaXfer {s : State} (h : s.Inv) (c : Fin 3) : (s.dmaXfer c).Inv := by
  have hm : (s.moveByte c).Inv := (h.busRd8 _).busWr8 _ _
  unfold State.dmaXfer State.completeIfDone State.stepChannel
  generalize s.moveByte c = u at hm
  rw [State.channel_withChannel, if_pos rfl]
  split
  · refine ⟨hm.cfg, hm.ram, hm.sram, hm.store, hm.drives, fun d => ?_, hm.sasi, hm.skipq⟩
    show ((State.withChannel _ c _).channel d).active = true → ((State.withChannel _ c _).channel d).count ≠ 0
    rw [State.channel_withChannel]
    split
    · intro e; simp at e
    · rename_i hne
      rw [State.channel_withChannel, if_neg hne]
      exact hm.channels d
  · exact hm.withChannel c fun _ => ‹_›

theorem State.Inv.sampledReady {s : State} (h : s.Inv) (c : Fin 3) : (s.sampledReady c).Inv := by
  unfold State.sampledReady
  split
  · exact h
  all_goals exact h.drew _

theorem State.Inv.withCredit {s : State} (h : s.Inv) (c : Fin 3) (n : Nat) : (s.withCredit c n).Inv :=
  h.withChannel c (h.channels c)

theorem State.Inv.dmaLoop (c : Fin 3) (line : Bool) (n : Nat) {s : State} (h : s.Inv) :
    (State.dmaLoop c line n s).Inv := by
  induction n generalizing s with
  | zero => exact h
  | succ n ih =>
    rw [State.dmaLoop]
    split
    · exact ih ((h.withCredit _ _).dmaXfer c)
    · exact h

theorem State.Inv.settleCredit {s : State} (h : s.Inv) (c : Fin 3) (line : Bool) : (s.settleCredit c line).Inv := by
  unfold State.settleCredit
  split
  · exact h
  · exact h.withCredit _ _

theorem State.Inv.dmaTurn {s : State} (h : s.Inv) (c : Fin 3) (line : Bool) (used : Nat) :
    (s.dmaTurn c line used).Inv := by
  unfold State.dmaTurn State.dmaPaced
  split
  · exact (State.Inv.dmaLoop _ _ _ (h.withCredit _ _)).settleCredit _ _
  · exact h.settleCredit _ _

theorem State.Inv.dmaStep {s : State} (h : s.Inv) (c : Fin 3) (used : Nat) : (s.dmaStep c used).Inv := by
  unfold State.dmaStep
  split
  · exact (h.sampledReady c).dmaTurn _ _ _
  · exact h.dmaTurn _ _ _

theorem State.Inv.backendOp {s : State} (h : s.Inv) (op : BackendOp) : (s.backendOp op).Inv := by
  cases op with
  | rd8 a => exact (h.busRd8 a).call _
  | wr8 a v => exact h.busWr8 a v
  | rd16 a => exact (h.busRd16 a).call _
  | wr16 a v => exact h.busWr16 a v
  | rd32 a => exact (h.busRd32 a).call _
  | wr32 a v => exact h.busWr32 a v
  | dmaStart c src dst n ss ds => exact h.dmaStart _ _ _ _ _ _

theorem State.Inv.execute {s : State} (h : s.Inv) (req : Nat) (irq : Option (Src × Byte)) :
    (s.execute req irq).2.Inv :=
  State.Inv.foldl (fun _ _ h => h.backendOp _) _ ((h.drew _).call _)

theorem State.Inv.rtcTick {s : State} (h : s.Inv) (used : Nat) : (s.rtcTick used).Inv := by
  unfold State.rtcTick
  dsimp only
  split
  all_goals exact ⟨h.cfg, h.ram, h.sram, h.store, h.drives, h.channels, h.sasi, h.skipq⟩

theorem State.Inv.timersTick {s : State} (h : s.Inv) (used : Nat) : (s.timersTick used).Inv :=
  ((h.rtcTick used).emit _).drawEvents _

theorem State.Inv.resolve {s : State} (h : s.Inv) : s.resolve.2.Inv := by
  unfold State.resolve
  split
  · exact h
  · exact ⟨h.cfg, h.ram, h.sram, h.store, h.drives, h.channels, h.sasi, h.skipq⟩

end Sys2Proof.Machine
end

