-- ==== Sys2Proof/Laws/PerInstr.lean ====
section
/-! SUPPORT. The laws stated for each operation. `EncodeFormat`: the encoder writes an operation in the format the
opcode table gives its row. -/

namespace Sys2Proof.Laws.EncodeFormat

/-- The decode stages of 30_encoding R70 and the model's own formats (log 1). -/
inductive Format where
  | host | bus | port | phase | cdb6 | seq | irq | dma | evt | tick | internal
  deriving DecidableEq, Repr

/-- The format of a request. -/
def formatOf : Request → Format
  | .host _ _ => .host
  | .bus _ => .bus
  | .port _ _ => .port
  | .phase _ _ => .phase
  | .cdb6 _ => .cdb6
  | .seq _ => .seq
  | .irq _ => .irq
  | .dma _ _ _ => .dma
  | .evt _ _ => .evt
  | .tick _ _ => .tick
  | .internal _ _ => .internal

/-- The column `format` of an operation's row of the opcode table. -/
def rowFormat : Instr → Format
  | .powerOn _ _ _ => .host
  | .shutdown => .host
  | .reset => .host
  | .runFrame => .host
  | .save _ => .host
  | .load _ _ => .host
  | .hostBusRd _ => .host
  | .hostBusWr _ _ => .host
  | .fddInsert _ _ => .host
  | .fddEject _ => .host
  | .fddGetImage _ => .host
  | .fddSetImage _ _ => .host
  | .fddIsReading _ => .host
  | .busRd8 _ => .bus
  | .busWr8 _ _ => .bus
  | .busRd16 _ => .bus
  | .busWr16 _ _ => .bus
  | .busRd32 _ => .bus
  | .busWr32 _ _ => .bus
  | .sasiDataRd => .port
  | .sasiDataWr _ => .port
  | .sasiStatusRd => .port
  | .sasiAckselWr _ => .port
  | .sasiResetWr _ => .port
  | .sasiSelectWr _ => .port
  | .sysportSramweWr _ => .port
  | .rtcRegRd _ => .port
  | .rtcRegWr _ _ => .port
  | .ramRd _ => .port
  | .ramWr _ _ => .port
  | .romRd _ => .port
  | .scsiromRd _ => .port
  | .sramRd _ => .port
  | .sramWr _ _ => .port
  | .unmappedRd _ => .port
  | .unmappedWr _ _ => .port
  | .extRd _ => .port
  | .extWr _ _ => .port
  | .sasiCmdbyte _ => .phase
  | .sasiDataout _ => .phase
  | .sasiVendorbyte _ => .phase
  | .sasiViolationWr _ => .phase
  | .sasiNopWr _ => .phase
  | .sasiDatain => .phase
  | .sasiStatusbyte => .phase
  | .sasiMsgbyte => .phase
  | .sasiSensebyte => .phase
  | .sasiViolationRd => .phase
  | .sasiNopRd => .phase
  | .sasiCmdTestReady _ => .cdb6
  | .sasiCmdRecalibrate _ => .cdb6
  | .sasiCmdRequestSense _ => .cdb6
  | .sasiCmdFormat _ => .cdb6
  | .sasiCmdRead _ => .cdb6
  | .sasiCmdWrite _ => .cdb6
  | .sasiCmdSeek _ => .cdb6
  | .sasiCmdVendorC2 _ => .cdb6
  | .sasiCmdUnsupported _ _ => .cdb6
  | .frameStart => .seq
  | .lineStart => .seq
  | .slice => .seq
  | .lineEnd => .seq
  | .frameEnd => .seq
  | .irqRequest _ => .irq
  | .irqResolve => .irq
  | .dmaStart _ _ _ _ _ _ => .dma
  | .dmaStep _ _ => .dma
  | .dmaXfer _ => .dma
  | .dmaComplete _ => .dma
  | .fastclrRequest => .evt
  | .fddReadSector _ _ => .evt
  | .fddWriteSector _ _ _ => .evt
  | .timersTick _ => .tick
  | .rtcTick _ => .tick
  | .sasiExecute => .internal
  | .sasiEnterStatus => .internal
  | .imgRead _ _ _ => .internal
  | .imgWrite _ _ _ => .internal
  | .imgOk _ _ _ => .internal
  | .fastclrResolve => .internal
  | .frameskipAdapt _ => .internal

/-- The request the encoder writes for an operation has the format of its row. -/
def Statement (i : Instr) : Prop := formatOf (encode i) = rowFormat i

theorem powerOn : ∀ a b c, Statement (.powerOn a b c) := fun _ _ _ => rfl
theorem shutdown : Statement (.shutdown) := rfl
theorem reset : Statement (.reset) := rfl
theorem runFrame : Statement (.runFrame) := rfl
theorem save : ∀ a, Statement (.save a) := fun _ => rfl
theorem load : ∀ a b, Statement (.load a b) := fun _ _ => rfl
theorem hostBusRd : ∀ a, Statement (.hostBusRd a) := fun _ => rfl
theorem hostBusWr : ∀ a b, Statement (.hostBusWr a b) := fun _ _ => rfl
theorem fddInsert : ∀ a b, Statement (.fddInsert a b) := fun _ _ => rfl
theorem fddEject : ∀ a, Statement (.fddEject a) := fun _ => rfl
theorem fddGetImage : ∀ a, Statement (.fddGetImage a) := fun _ => rfl
theorem fddSetImage : ∀ a b, Statement (.fddSetImage a b) := fun _ _ => rfl
theorem fddIsReading : ∀ a, Statement (.fddIsReading a) := fun _ => rfl
theorem busRd8 : ∀ a, Statement (.busRd8 a) := fun _ => rfl
theorem busWr8 : ∀ a b, Statement (.busWr8 a b) := fun _ _ => rfl
theorem busRd16 : ∀ a, Statement (.busRd16 a) := fun _ => rfl
theorem busWr16 : ∀ a b, Statement (.busWr16 a b) := fun _ _ => rfl
theorem busRd32 : ∀ a, Statement (.busRd32 a) := fun _ => rfl
theorem busWr32 : ∀ a b, Statement (.busWr32 a b) := fun _ _ => rfl
theorem sasiDataRd : Statement (.sasiDataRd) := rfl
theorem sasiDataWr : ∀ a, Statement (.sasiDataWr a) := fun _ => rfl
theorem sasiStatusRd : Statement (.sasiStatusRd) := rfl
theorem sasiAckselWr : ∀ a, Statement (.sasiAckselWr a) := fun _ => rfl
theorem sasiResetWr : ∀ a, Statement (.sasiResetWr a) := fun _ => rfl
theorem sasiSelectWr : ∀ a, Statement (.sasiSelectWr a) := fun _ => rfl
theorem sysportSramweWr : ∀ a, Statement (.sysportSramweWr a) := fun _ => rfl
theorem rtcRegRd : ∀ a, Statement (.rtcRegRd a) := fun _ => rfl
theorem rtcRegWr : ∀ a b, Statement (.rtcRegWr a b) := fun _ _ => rfl
theorem ramRd : ∀ a, Statement (.ramRd a) := fun _ => rfl
theorem ramWr : ∀ a b, Statement (.ramWr a b) := fun _ _ => rfl
theorem romRd : ∀ a, Statement (.romRd a) := fun _ => rfl
theorem scsiromRd : ∀ a, Statement (.scsiromRd a) := fun _ => rfl
theorem sramRd : ∀ a, Statement (.sramRd a) := fun _ => rfl
theorem sramWr : ∀ a b, Statement (.sramWr a b) := fun _ _ => rfl
theorem unmappedRd : ∀ a, Statement (.unmappedRd a) := fun _ => rfl
theorem unmappedWr : ∀ a b, Statement (.unmappedWr a b) := fun _ _ => rfl
theorem extRd : ∀ a, Statement (.extRd a) := fun _ => rfl
theorem extWr : ∀ a b, Statement (.extWr a b) := fun _ _ => rfl
theorem sasiCmdbyte : ∀ a, Statement (.sasiCmdbyte a) := fun _ => rfl
theorem sasiDataout : ∀ a, Statement (.sasiDataout a) := fun _ => rfl
theorem sasiVendorbyte : ∀ a, Statement (.sasiVendorbyte a) := fun _ => rfl
theorem sasiViolationWr : ∀ a, Statement (.sasiViolationWr a) := fun _ => rfl
theorem sasiNopWr : ∀ a, Statement (.sasiNopWr a) := fun _ => rfl
theorem sasiDatain : Statement (.sasiDatain) := rfl
theorem sasiStatusbyte : Statement (.sasiStatusbyte) := rfl
theorem sasiMsgbyte : Statement (.sasiMsgbyte) := rfl
theorem sasiSensebyte : Statement (.sasiSensebyte) := rfl
theorem sasiViolationRd : Statement (.sasiViolationRd) := rfl
theorem sasiNopRd : Statement (.sasiNopRd) := rfl
theorem sasiCmdTestReady : ∀ a, Statement (.sasiCmdTestReady a) := fun _ => rfl
theorem sasiCmdRecalibrate : ∀ a, Statement (.sasiCmdRecalibrate a) := fun _ => rfl
theorem sasiCmdRequestSense : ∀ a, Statement (.sasiCmdRequestSense a) := fun _ => rfl
theorem sasiCmdFormat : ∀ a, Statement (.sasiCmdFormat a) := fun _ => rfl
theorem sasiCmdRead : ∀ a, Statement (.sasiCmdRead a) := fun _ => rfl
theorem sasiCmdWrite : ∀ a, Statement (.sasiCmdWrite a) := fun _ => rfl
theorem sasiCmdSeek : ∀ a, Statement (.sasiCmdSeek a) := fun _ => rfl
theorem sasiCmdVendorC2 : ∀ a, Statement (.sasiCmdVendorC2 a) := fun _ => rfl
theorem sasiCmdUnsupported : ∀ a b, Statement (.sasiCmdUnsupported a b) := fun _ _ => rfl
theorem frameStart : Statement (.frameStart) := rfl
theorem lineStart : Statement (.lineStart) := rfl
theorem slice : Statement (.slice) := rfl
theorem lineEnd : Statement (.lineEnd) := rfl
theorem frameEnd : Statement (.frameEnd) := rfl
theorem irqRequest : ∀ a, Statement (.irqRequest a) := fun _ => rfl
theorem irqResolve : Statement (.irqResolve) := rfl
theorem dmaStart : ∀ a b c d e f, Statement (.dmaStart a b c d e f) := fun _ _ _ _ _ _ => rfl
theorem dmaStep : ∀ a b, Statement (.dmaStep a b) := fun _ _ => rfl
theorem dmaXfer : ∀ a, Statement (.dmaXfer a) := fun _ => rfl
theorem dmaComplete : ∀ a, Statement (.dmaComplete a) := fun _ => rfl
theorem fastclrRequest : Statement (.fastclrRequest) := rfl
theorem fddReadSector : ∀ a b, Statement (.fddReadSector a b) := fun _ _ => rfl
theorem fddWriteSector : ∀ a b c, Statement (.fddWriteSector a b c) := fun _ _ _ => rfl
theorem timersTick : ∀ a, Statement (.timersTick a) := fun _ => rfl
theorem rtcTick : ∀ a, Statement (.rtcTick a) := fun _ => rfl
theorem sasiExecute : Statement (.sasiExecute) := rfl
theorem sasiEnterStatus : Statement (.sasiEnterStatus) := rfl
theorem imgRead : ∀ a b c, Statement (.imgRead a b c) := fun _ _ _ => rfl
theorem imgWrite : ∀ a b c, Statement (.imgWrite a b c) := fun _ _ _ => rfl
theorem imgOk : ∀ a b c, Statement (.imgOk a b c) := fun _ _ _ => rfl
theorem fastclrResolve : Statement (.fastclrResolve) := rfl
theorem frameskipAdapt : ∀ a, Statement (.frameskipAdapt a) := fun _ => rfl

end Sys2Proof.Laws.EncodeFormat
end

