-- ==== Sys2Proof/Tests/Slice0.lean ====
section
/-! SUPPORT. The model's own tests: the checks of WellFormed refuse ill-formed terms; words written out from
30_encoding decode to their operations; one step of each operation against the vectors of 95_test_vectors; and
for each statement with hypotheses a state and operands that meet them. -/


namespace Sys2Proof.Tests

set_option Elab.async false

open Sys2Proof Sys2Proof.Machine

/-! ### Ill-formed terms (00_scope R5) -/

theorem test_wf_cfgT : cfgT.wf = true ∧ cfgT.noOverflow = true := by decide +kernel
theorem test_wf_bootRom_absent : ({ cfgT with bootRom := none } : Cfg).wf = false := by decide +kernel
theorem test_wf_bootRom_short : ({ cfgT with bootRom := some ⟨0x1FFFF, 0xB0, []⟩ } : Cfg).wf = false := by
  decide +kernel
theorem test_wf_cgRom_absent : ({ cfgT with cgRom := none } : Cfg).wf = false := by decide +kernel
theorem test_wf_cgRom_long : ({ cfgT with cgRom := some ⟨0xC0001, 0, []⟩ } : Cfg).wf = false := by
  decide +kernel
theorem test_wf_ramSize : ({ cfgT with ramSize := 0 } : Cfg).wf = false ∧
    ({ cfgT with ramSize := 0xC00001 } : Cfg).wf = false := by decide +kernel
theorem test_wf_map_gap : ({ cfgT with map := (defaultMap 0x200000).drop 1 } : Cfg).wf = false := by
  decide +kernel
theorem test_wf_map_overlap : ({ cfgT with map := ⟨0, 0, .ram⟩ :: defaultMap 0x200000 } : Cfg).wf = false := by
  decide +kernel
theorem test_wf_map_any_order : ({ cfgT with map := cfgT.map.reverse } : Cfg).wf = true ∧
    ({ cfgT with map := cfgT.map.reverse.drop 1 } : Cfg).wf = false := by decide +kernel
theorem test_wf_map_empty_row : -- R47's second row at RAM_SIZE = 0xC00000
    let rows := ⟨0xC00000, 0xBFFFFF, .unmapped⟩ :: defaultMap 0xC00000
    ({ cfgT with ramSize := 0xC00000, map := rows } : Cfg).wf = true ∧
    kindAt rows 0xBFFFFF = .ram ∧ kindAt rows 0xC00000 = .ext .videoMem := by decide +kernel
theorem test_wf_map_ram_beyond : ({ cfgT with map := defaultMap 0x300000 } : Cfg).wf = false := by
  decide +kernel
theorem test_wf_region_sram : Region.wf 0x200000 ⟨0xED0000, 0xED4000, .sram⟩ = false := by decide
theorem test_wf_region_roms : Region.wf 0x200000 ⟨0xFC0000, 0xFFFFFF, .bootRom⟩ = false ∧
    Region.wf 0x200000 ⟨0xF00000, 0xFFFFFF, .cgRom⟩ = false := by decide
theorem test_wf_clockMult : ({ cfgT with clockMult := 0 } : Cfg).wf = false := by decide +kernel
theorem test_wf_quantum : ({ cfgT with quantum := 0 } : Cfg).wf = false := by decide +kernel
theorem test_wf_polls : ({ cfgT with keyDiv := 0 } : Cfg).wf = false ∧
    ({ cfgT with mouseDiv := 0 } : Cfg).wf = false := by decide +kernel
theorem test_wf_frameskipMax : ({ cfgT with frameskipMax := 256 } : Cfg).wf = false := by decide +kernel
theorem test_wf_mode_lines : VideoMode.wf cfgT ⟨0, 0, 1000, 1, 3, 16, 2⟩ = false ∧
    VideoMode.wf cfgT ⟨0, 65536, 100000, 1, 3, 16, 2⟩ = false ∧
    VideoMode.wf cfgT ⟨0, 4, 3, 1, 3, 16, 2⟩ = false := by decide
theorem test_wf_mode_ideal : VideoMode.wf cfgT ⟨0, 4, 1000, 1, 3, 0, 2⟩ = false := by decide
theorem test_wf_mode_fastclr : VideoMode.wf cfgT ⟨0, 4, 1000, 1, 3, 16, 0⟩ = false ∧
    VideoMode.wf cfgT ⟨0, 4, 1000, 1, 3, 16, 4⟩ = false := by decide
theorem test_wf_overrun : ({ cfgT with overrunMax := 250 } : Cfg).wf = true ∧
    ({ cfgT with overrunMax := 251 } : Cfg).wf = false := by decide +kernel
theorem test_wf_modes_twice : ({ cfgT with modes := cfgT.modes ++ cfgT.modes } : Cfg).wf = false := by
  decide +kernel
theorem test_wf_prio_injective : prioWf #v[0, 0, 2, 3, 4, 5, 6, 7, 8] = false := by decide
theorem test_wf_prio_storage : prioWf #v[0, 2, 1, 3, 4, 5, 6, 7, 8] = false := by decide
theorem test_wf_prio_others : prioWf #v[0, 1, 8, 3, 4, 5, 6, 7, 2] = false := by decide
theorem test_wf_dmaCost : ({ cfgT with dmaCost := #v[4, 0, 4] } : Cfg).wf = false := by decide +kernel
theorem test_wf_rtcPeriods : ({ cfgT with rtcPeriodA := 0 } : Cfg).wf = false ∧
    ({ cfgT with rtcPeriodB := 0 } : Cfg).wf = false := by decide +kernel
theorem test_wf_overflow : ({ cfgT with quantum := 2 ^ 31 } : Cfg).noOverflow = false := by decide +kernel
theorem test_wf_powerOn : Instr.wf cfgT (.powerOn cfgT [(1, 0)] []) = false ∧
    Instr.wf cfgT (.powerOn cfgT [(0x200000, 1)] []) = false ∧
    Instr.wf cfgT (.powerOn cfgT [] [(0x4000, 1)]) = false ∧
    Instr.wf cfgT (.powerOn cfgT [(2, 1), (1, 1)] []) = false := by decide +kernel
theorem test_wf_rtc : Instr.wf cfgT (.rtcRegRd 0xE8A000) = false ∧
    Instr.wf cfgT (.rtcRegWr 0xE8A000 0) = false := by decide +kernel
theorem test_wf_ram : Instr.wf cfgT (.ramRd 0x200000) = false ∧ Instr.wf cfgT (.ramWr 0x200000 0) = false := by
  decide +kernel
theorem test_wf_rom : Instr.wf cfgT (.romRd 0xFC0000) = false ∧ Instr.wf cfgT (.scsiromRd 0xEA2000) = false := by
  decide +kernel
theorem test_wf_sram : Instr.wf cfgT (.sramRd 0xED4000) = false ∧ Instr.wf cfgT (.sramWr 0xED4000 0) = false := by
  decide +kernel
theorem test_wf_unmapped : Instr.wf cfgT (.unmappedRd 0) = false ∧ Instr.wf cfgT (.unmappedWr 0 0) = false := by
  decide +kernel
theorem test_wf_ext : Instr.wf cfgT (.extRd 0xE8E00D) = false ∧ Instr.wf cfgT (.extWr 0xE96000 0) = false := by
  decide +kernel
theorem test_wf_unsupported : Instr.wf cfgT (.sasiCmdUnsupported 0x08 default) = false := by decide
theorem test_wf_sector : Instr.wf cfgT (.fddWriteSector 0 0 [0]) = false := by decide

/-! ### Words (30_encoding R71 to R89), each written out from its row -/

theorem test_decode_host_life :
    decode cfgT (.host 0b0000 [.cfg cfgT, .mem [(5, 1)], .mem []]) = .ok (.powerOn cfgT [(5, 1)] []) ∧
    decode cfgT (.host 0b0001 []) = .ok .shutdown ∧ decode cfgT (.host 0b0010 []) = .ok .reset ∧
    decode cfgT (.host 0b0011 []) = .ok .runFrame ∧ decode cfgT (.host 0b0100 [.snap .durable]) = .ok (.save .durable) ∧
    decode cfgT (.host 0b0101 [.snap .fast, .bytes [1, 2]]) = .ok (.load .fast [1, 2]) := by decide +kernel
theorem test_decode_host_bus :
    decode cfgT (.host 0b0110 [.nat 0xE96003]) = .ok (.hostBusRd 0xE96003) ∧
    decode cfgT (.host 0b0111 [.nat 0x001000, .nat 0x5A]) = .ok (.hostBusWr 0x001000 0x5A) ∧
    decode cfgT (.host 0b0110 [.nat 0x01001000]) = .ok (.hostBusRd 0x001000) := by decide +kernel
theorem test_decode_host_fdd :
    decode cfgT (.host 0b1000 [.nat 0, .nat 7]) = .ok (.fddInsert 0 7) ∧
    decode cfgT (.host 0b1001 [.nat 1]) = .ok (.fddEject 1) ∧
    decode cfgT (.host 0b1010 [.nat 1]) = .ok (.fddGetImage 1) ∧
    decode cfgT (.host 0b1011 [.nat 1, .handle none]) = .ok (.fddSetImage 1 none) ∧
    decode cfgT (.host 0b1100 [.nat 2]) = .ok (.fddIsReading 2) := by decide +kernel
theorem test_decode_bus8 :
    decode cfgT (.bus [0b0_000000000001000000000000_00000000#33]) = .ok (.busRd8 0x001000) ∧
    decode cfgT (.bus [0b1_111010010110000000000001_00001000#33]) = .ok (.busWr8 0xE96001 0x08) ∧
    decode cfgT (.bus [0x0E9600300#33]) = .ok (.busRd8 0xE96003) := by decide +kernel
theorem test_decode_bus_wide :
    decode cfgT (.bus [0x000001000#33, 0x000001100#33]) = .ok (.busRd16 0x000010) ∧
    decode cfgT (.bus [0x100001012#33, 0x100001134#33]) = .ok (.busWr16 0x000010 0x1234) ∧
    decode cfgT (.bus [0x0ED000800#33, 0x0ED000900#33, 0x0ED000A00#33, 0x0ED000B00#33]) =
      .ok (.busRd32 0xED0008) ∧
    decode cfgT (.bus [0x1ED000800#33, 0x1ED000920#33, 0x1ED000A00#33, 0x1ED000B00#33]) =
      .ok (.busWr32 0xED0008 0x00200000) := by decide +kernel
theorem test_decode_bus_wrap :
    decode cfgT (.bus [0x0FFFFFF00#33, 0x000000000#33]) = .ok (.busRd16 0xFFFFFF) := by decide +kernel
theorem test_decode_port_sasi :
    decode cfgT (.port 0b0_111010010110000000000001#25 0) = .ok .sasiDataRd ∧
    decode cfgT (.port 0b1_111010010110000000000001#25 0x55) = .ok (.sasiDataWr 0x55) ∧
    decode cfgT (.port 0x0E96003#25 0) = .ok .sasiStatusRd ∧
    decode cfgT (.port 0x1E96003#25 0) = .ok (.sasiAckselWr 0) ∧
    decode cfgT (.port 0x1E96005#25 0) = .ok (.sasiResetWr 0) ∧
    decode cfgT (.port 0x1E96007#25 1) = .ok (.sasiSelectWr 1) := by decide +kernel
theorem test_decode_port_devices :
    decode cfgT (.port 0x1E8E00D#25 0x31) = .ok (.sysportSramweWr 0x31) ∧
    decode cfgT (.port 0b0_11101000101_00000000_0010_1#25 0) = .ok (.rtcRegRd 0xE8A005) ∧
    decode cfgT (.port 0b1_11101000101_00000000_1101_1#25 1) = .ok (.rtcRegWr 0xE8A01B 1) := by decide +kernel
theorem test_decode_port_memory :
    decode cfgT (.port 0x01FFFFF#25 0) = .ok (.ramRd 0x1FFFFF) ∧
    decode cfgT (.port 0x11FFFFF#25 0xA5) = .ok (.ramWr 0x1FFFFF 0xA5) ∧
    decode cfgT (.port 0x0FE0000#25 0) = .ok (.romRd 0xFE0000) ∧
    decode cfgT (.port 0x0F00000#25 0) = .ok (.romRd 0xF00000) ∧
    decode cfgT (.port 0x0EA0000#25 0) = .ok (.scsiromRd 0xEA0000) ∧
    decode cfgT (.port 0x0ED3FFF#25 0) = .ok (.sramRd 0xED3FFF) ∧
    decode cfgT (.port 0x1ED0010#25 0x77) = .ok (.sramWr 0xED0010 0x77) := by decide +kernel
theorem test_decode_port_rest :
    decode cfgT (.port 0x0200000#25 0) = .ok (.unmappedRd 0x200000) ∧
    decode cfgT (.port 0x0E96005#25 0) = .ok (.unmappedRd 0xE96005) ∧
    decode cfgT (.port 0x0E8E00D#25 0) = .ok (.unmappedRd 0xE8E00D) ∧
    decode cfgT (.port 0x1FE0000#25 9) = .ok (.unmappedWr 0xFE0000 9) ∧
    decode cfgT (.port 0x0E88001#25 0) = .ok (.extRd 0xE88001) ∧
    decode cfgT (.port 0x1E8E00F#25 4) = .ok (.extWr 0xE8E00F 4) := by decide +kernel
theorem test_decode_phase_wr :
    decode cfgT (.phase 0b1_0010_0#6 8) = .ok (.sasiCmdbyte 8) ∧
    decode cfgT (.phase 0b1_0010_1#6 8) = .ok (.sasiCmdbyte 8) ∧
    decode cfgT (.phase 0b1_0011_0#6 9) = .ok (.sasiDataout 9) ∧
    decode cfgT (.phase 0b1_1010_1#6 9) = .ok (.sasiVendorbyte 9) ∧
    decode cfgT (.phase 0b1_0011_1#6 9) = .ok (.sasiViolationWr 9) ∧
    decode cfgT (.phase 0b1_1001_0#6 9) = .ok (.sasiViolationWr 9) ∧
    decode cfgT (.phase 0b1_0101_0#6 9) = .ok (.sasiNopWr 9) := by decide
theorem test_decode_phase_rd :
    decode cfgT (.phase 0b0_0011_1#6 0) = .ok .sasiDatain ∧
    decode cfgT (.phase 0b0_0100_0#6 0) = .ok .sasiStatusbyte ∧
    decode cfgT (.phase 0b0_0101_1#6 0) = .ok .sasiMsgbyte ∧
    decode cfgT (.phase 0b0_1001_0#6 0) = .ok .sasiSensebyte ∧
    decode cfgT (.phase 0b0_0010_0#6 0) = .ok .sasiViolationRd ∧
    decode cfgT (.phase 0b0_0011_0#6 0) = .ok .sasiViolationRd ∧
    decode cfgT (.phase 0b0_1010_1#6 0) = .ok .sasiViolationRd ∧
    decode cfgT (.phase 0b0_0001_0#6 0) = .ok .sasiNopRd := by decide
theorem test_decode_phase_reserved :
    decode cfgT (.phase 0b0_0110_0#6 0) = .error .reservedPhaseCode ∧
    decode cfgT (.phase 0b1_1011_0#6 0) = .error .reservedPhaseCode := by decide
theorem test_decode_cdb_fields :
    decode cfgT (.cdb6 0b00001000_01_1_11111_11111111_11111111_00000010_11111111#48) =
      .ok (.sasiCmdRead ⟨1, 1, 0x1FFFFF, 2, 0xFF⟩) := by decide +kernel
theorem test_decode_cdb :
    decode cfgT (.cdb6 0x002000000000#48) = .ok (.sasiCmdTestReady ⟨0, 1, 0, 0, 0⟩) ∧
    decode cfgT (.cdb6 0x010000000000#48) = .ok (.sasiCmdRecalibrate ⟨0, 0, 0, 0, 0⟩) ∧
    decode cfgT (.cdb6 0x032000000000#48) = .ok (.sasiCmdRequestSense ⟨0, 1, 0, 0, 0⟩) ∧
    decode cfgT (.cdb6 0x040000000000#48) = .ok (.sasiCmdFormat ⟨0, 0, 0, 0, 0⟩) ∧
    decode cfgT (.cdb6 0x0A0000020100#48) = .ok (.sasiCmdWrite ⟨0, 0, 2, 1, 0⟩) ∧
    decode cfgT (.cdb6 0x0B0012340000#48) = .ok (.sasiCmdSeek ⟨0, 0, 0x1234, 0, 0⟩) ∧
    decode cfgT (.cdb6 0xC20000000000#48) = .ok (.sasiCmdVendorC2 ⟨0, 0, 0, 0, 0⟩) ∧
    decode cfgT (.cdb6 0xFF0000000000#48) = .ok (.sasiCmdUnsupported 0xFF ⟨0, 0, 0, 0, 0⟩) := by decide +kernel
theorem test_decode_seq :
    decode cfgT (.seq 0b000) = .ok .frameStart ∧ decode cfgT (.seq 0b001) = .ok .lineStart ∧
    decode cfgT (.seq 0b010) = .ok .slice ∧ decode cfgT (.seq 0b011) = .ok .lineEnd ∧
    decode cfgT (.seq 0b100) = .ok .frameEnd ∧ decode cfgT (.seq 0b101) = .error .reservedSeqCode := by decide
theorem test_decode_irq : decode cfgT (.irq (some 0b0110)) = .ok (.irqRequest 6) ∧
    decode cfgT (.irq none) = .ok .irqResolve := by decide
theorem test_decode_dma :
    decode cfgT (.dma 0 0b01 [0xE96001, 0x001000, 0x0100, 0, 1]) =
      .ok (.dmaStart 1 0xE96001 0x001000 0x0100 0 1) ∧
    decode cfgT (.dma 1 0b10 [50]) = .ok (.dmaStep 2 50) ∧ decode cfgT (.dma 2 0b00 []) = .ok (.dmaXfer 0) ∧
    decode cfgT (.dma 3 0b01 []) = .ok (.dmaComplete 1) := by decide
theorem test_decode_evt :
    decode cfgT (.evt 0b00 []) = .ok .fastclrRequest ∧
    decode cfgT (.evt 0b01 [.nat 0, .nat 3]) = .ok (.fddReadSector 0 3) ∧
    decode { cfgT with fddSectorSize := 2 } (.evt 0b10 [.nat 0, .nat 1, .bytes [1, 2]]) =
      .ok (.fddWriteSector 0 1 [1, 2]) ∧
    decode cfgT (.evt 0b11 [.nat 1]) = .ok (.irqRequest 1) ∧
    decode cfgT (.evt 0b11 [.nat 0]) = .error .sourceNotExternal ∧
    decode cfgT (.evt 0b11 [.nat 9]) = .ok (.irqRequest 9) ∧ -- R86: no operation, no refusal
    decode cfgT (.evt 0b11 [.nat 15]) = .ok (.irqRequest 15) := by decide
theorem test_decode_tick : decode cfgT (.tick 0 50) = .ok (.timersTick 50) ∧
    decode cfgT (.tick 1 50) = .ok (.rtcTick 50) := by decide
theorem test_decode_internal :
    decode cfgT (.internal 0 []) = .ok .sasiExecute ∧ decode cfgT (.internal 1 []) = .ok .sasiEnterStatus ∧
    decode cfgT (.internal 2 [.handle (some 0), .nat 256, .nat 256]) = .ok (.imgRead (some 0) 256 256) ∧
    decode cfgT (.internal 3 [.handle (some 0), .nat 0, .bytes [7]]) = .ok (.imgWrite (some 0) 0 [7]) ∧
    decode cfgT (.internal 4 [.handle none, .nat 0, .nat 1]) = .ok (.imgOk none 0 1) ∧
    decode cfgT (.internal 5 []) = .ok .fastclrResolve ∧
    decode cfgT (.internal 6 [.nat 40]) = .ok (.frameskipAdapt 40) := by decide
theorem test_decode_host_reserved : decode cfgT (.host 0xD []) = .error .reservedHostCode ∧
    decode cfgT (.host 0xF [.nat 1]) = .error .reservedHostCode := by decide
theorem test_table_words : decodeTableWord 8 0x3 = some .runFrame ∧ decodeTableWord 8 0x12 = some .sasiSensebyte ∧
    decodeTableWord 32 0x1E96001 = some (.sasiDataWr 0) ∧ decodeTableWord 40 0x100000000 = some (.busWr8 0 0) ∧
    decodeTableWord 48 0xC20000000000 = some (.sasiCmdVendorC2 ⟨0, 0, 0, 0, 0⟩) ∧
    decodeTableWord 3 0b010 = some .slice ∧ decodeTableWord 2 0b01 = some (.fddReadSector 0 0) := by decide +kernel

/-! ### One step of each operation (95_test_vectors) -/

/-- The state after an operation, the same state where it stops. -/
def after (i : Instr) (s : State) : State :=
  match exec i s with
  | .next t => t
  | .fault _ | .refused _ => s

/-- Whether an operation is refused for a reason. -/
def refusedWith (r : Refusal) (i : Instr) (s : State) : Bool :=
  match exec i s with
  | .refused q => q == r
  | .next _ | .fault _ => false

/-- Some bytes of `IMG0` in an image of its size. -/
def excerpt : Image :=
  ⟨1024, [(1, 1), (2, 2), (3, 3), (4, 4), (254, 0xFE), (255, 0xFF), (256, 1), (257, 2), (510, 0xFF), (766, 0), (768, 3), (769, 4),
    (1022, 1), (1023, 2)].filter fun c => c.2 != 0⟩

/-- The machine after `POWER_ON CFG_T`, its one image cut down to an excerpt. -/
def base : State := { State.reset with store := [(0, excerpt)] }

/-- The machine after `POWER_ON CFG_T`, with a SASI controller state. -/
def withSasi (d : Sasi) : State := { base with sasi := d }

/-- A controller with device 0 selected, in a phase. -/
def dev0 (p : Phase) : Sasi := { Sasi.reset with phase := p, device := 0 }

/-- The registers of a controller but for its arrays, in the order of 10_state Table S. -/
def regs (d : Sasi) : List Nat :=
  [d.phase.code.toNat, d.device.toNat, d.unit.toNat, d.cmdptr.toNat, d.sector.toNat, d.blocks.toNat, d.rw.toNat,
    d.bufptr.toNat, d.stat.toNat, d.error.toNat, d.senseptr.toNat, d.vptr.toNat]

/-- `IMG0` on drive 0, in place of an empty drive. -/
def withFloppy : State := { base with fdd := [⟨true, false, some 0⟩, Fdd.reset] }

/-- A clock inside scanline 0 of a frame of CFG_T. -/
def clk0 : Clock := { Clock.reset with nlines := 4, budget := 1000, next := 250 }

/-- A state inside a frame, the environment's answers lined up. -/
def inFrame (q : Seq) (k : Clock) (i : Inputs) : State :=
  { base with clk := k, inputs := i, sched := { Sched.reset with seq := q } }

/-- One answer of a silent backend, one draw of events. -/
def silent (consumed : Nat) : Inputs :=
  { Inputs.reset with backend := [⟨[], consumed⟩], extEvents := [[]] }

-- HOST
theorem test_powerOn : exec (.powerOn cfgT [] []) { base with calls := [] } = .next base := rfl
theorem test_powerOn_noRom : -- V-ERR-1
    (after (.powerOn { cfgT with bootRom := none } [] []) base).result = .configurationError .boot ∧
    (after (.powerOn { cfgT with bootRom := none } [] []) base).alive = false := by decide +kernel
theorem test_shutdown : (after .shutdown base).alive = false ∧
    refusedWith .noContext .runFrame (after .shutdown base) = true := by decide +kernel
theorem test_reset : -- V-RST-2
    let s := { withFloppy with pend := 0x40, sramWe := true, ram := [(0x1000, 0x5A)], sasi := dev0 .selection, rtc := { Rtc.reset with mode := 1, ta := 7 } }
    (after .reset s).pend = 0 ∧ (after .reset s).sramWe = false ∧ (after .reset s).ram = [(0x1000, 0x5A)] ∧
    regs (after .reset s).sasi = regs Sasi.reset ∧ (after .reset s).rtc = { Rtc.reset with mode := 1 } ∧
    (after .reset s).fdd = withFloppy.fdd := by decide +kernel
theorem test_runFrame : -- a frame of one scanline and one slice
    let c := { cfgT with modes := [⟨0, 1, 5, 1, 3, 16, 2⟩], quantum := 10 }
    let s := { base with cfg := c, inputs := { silent 5 with
      videoModes := [0], rasterLines := [2], elapsedMs := [40], ready := [] } }
    (after .runFrame s).sched.seq = .idle ∧ (after .runFrame s).clk.count = 5 ∧
    (after .runFrame s).sched.skipq = 2 ∧ (after .runFrame s).emitted =
      [.frameDone true, .audioAdvance 5, .scanline 0, .extTick 5] := by decide +kernel
theorem test_save : -- V-SNAP-1, the head of the stream
    (base.saved .fast).take 4 = [0x00, 0x20, 0x41, 0x93] ∧
    (beBytes 4 (streamSize cfgT .durable) ++ tag .durable nameClock) =
      [0x00, 0x20, 0x41, 0xC5, 0x05, 0x43, 0x4C, 0x4F, 0x43, 0x4B] := by
  constructor
  · have : beBytes 4 (streamSize cfgT .fast) = [0x00, 0x20, 0x41, 0x93] := by decide +kernel
    show (beBytes 4 (streamSize cfgT .fast) ++ _).take 4 = _
    rw [this]
    rfl
  · decide +kernel
theorem test_save_clock : -- V-SNAP-3, bytes 4 to 31
    putClock { Clock.reset with budget := 1000, nlines := 4, next := 1000, count := 1000, lineused := 250 } =
      [0, 0, 3, 0xE8, 0, 0, 0, 4, 0, 0, 3, 0xE8, 0, 0, 0, 0, 0, 0, 3, 0xE8, 0, 0, 0, 0, 0, 0, 0, 0xFA] ∧
    putPend 0b011000000 = [0xC0, 0x00] := by decide +kernel
theorem test_load_rejected : -- V-SNAP-5
    (after (.load .fast [0, 0, 0, 4]) base).result = .stateIntegrityError ∧
    (after (.load .fast []) base).result = .stateIntegrityError := by decide +kernel
theorem test_load_fields : -- V-SNAP-5: reserved phase, upper bits of a one-bit field, packed flags
    (getFlag [2]).isNone = true ∧ (getPend [0, 2]).isNone = true ∧
    getPend [0, 1] = some (0b100000000, []) ∧ (getSched [2, 0, 1, 0, 0, 0, 0, 0, 0, 0]).isNone = true ∧
    (Phase.ofCode 6).isNone = true := by decide +kernel
theorem test_hostBus : (after (.hostBusRd 0xFE0000) base).result = .byte 0xB0 ∧
    (after (.hostBusWr 0x001000 0x5A) base).ram = [(0x1000, 0x5A)] := by decide +kernel
theorem test_host_midFrame : refusedWith .frameInProgress .reset (inFrame .slice clk0 (silent 1)) = true := by
  decide +kernel
theorem test_fddInsert : (after (.fddInsert 0 9) base).fdd = [⟨true, false, some 9⟩, Fdd.reset] ∧
    (after (.fddInsert 2 9) base).fdd = base.fdd := by decide +kernel
theorem test_fddEject : (after (.fddEject 0) withFloppy).fdd = base.fdd := by decide +kernel
theorem test_fddGetImage : (after (.fddGetImage 0) withFloppy).result = .handle (some 0) ∧
    (after (.fddGetImage 2) withFloppy).result = .handle none := by decide +kernel
theorem test_fddSetImage : (after (.fddSetImage 0 (some 5)) withFloppy).fdd =
    [⟨true, false, some 5⟩, Fdd.reset] := by decide +kernel
theorem test_fddIsReading :
    (after (.fddIsReading 0) { base with fdd := [⟨true, true, some 0⟩] }).result = .bit true ∧
    (after (.fddIsReading 2) base).result = .bit false := by decide +kernel

-- BUS (V-BUS-1 to V-BUS-9)
theorem test_busRd8 : (after (.busRd8 0xED4000) base).result = .byte 0xFF ∧
    (after (.busRd8 0xEA0001) base).result = .byte 0x43 := by decide +kernel
theorem test_busWr8 : (after (.busWr8 0x1FFFFF 0xA5) base).ram = [(0x1FFFFF, 0xA5)] ∧
    (after (.busWr8 0x200000 0x55) base).ram = [] := by decide +kernel
theorem test_busRd16_wrap :
    (after (.busRd16 0xFFFFFF) { base with ram := [(0, 0x5A)] }).result = .half 0xB05A := by decide +kernel
theorem test_busRd16_status : -- V-BUS-10
    (after (.busRd16 0xE96000) (withSasi (dev0 .status))).result = .half 0xFF00 ∧
    (after (.busRd16 0xE96000) (withSasi (dev0 .status))).sasi.phase = .message := by decide +kernel
theorem test_busWr16 : (after (.busWr16 0x10 0x1234) base).ram = [(0x10, 0x12), (0x11, 0x34)] := by
  decide +kernel
theorem test_busRd32 : (after (.busRd32 0x1FFFFE)
    { base with ram := [(0x1FFFFE, 0x11), (0x1FFFFF, 0x22)] }).result = .word 0x1122FFFF := by
  decide +kernel
theorem test_busWr32 : (after (.busWr32 0x1FFFFE 0x11223344) base).ram =
    [(0x1FFFFE, 0x11), (0x1FFFFF, 0x22)] := by decide +kernel

-- PORT
theorem test_dataRd : (after .sasiDataRd (withSasi { dev0 .status with stat := 2 })).result = .byte 2 ∧
    (after .sasiDataRd base).result = .byte 0 := by decide +kernel
theorem test_dataWr : (after (.sasiDataWr 8) (withSasi (dev0 .command))).sasi.cmdptr = 1 ∧
    regs (after (.sasiDataWr 0x55) (withSasi (dev0 .message))).sasi = regs (dev0 .message) := by decide +kernel
theorem test_statusRd : -- V-SASI-1
    (after .sasiStatusRd (withSasi (dev0 .command))).result = .byte 0x0B ∧
    (after .sasiStatusRd (withSasi { dev0 .data with rw := true })).result = .byte 0x07 := by decide +kernel
theorem test_statusByte_table : -- V-SASI-1
    (dev0 .busFree).statusByte = 0x00 ∧ (dev0 .selection).statusByte = 0x02 ∧ (dev0 .data).statusByte = 0x03 ∧
    (dev0 .status).statusByte = 0x0F ∧ (dev0 .message).statusByte = 0x1F ∧
    (dev0 .senseStatus).statusByte = 0x07 ∧ (dev0 .vendorInit).statusByte = 0x03 := by decide
theorem test_acksel : (after (.sasiAckselWr 0) (withSasi (dev0 .selection))).sasi.phase = .command ∧
    (after (.sasiAckselWr 0) (withSasi (dev0 .data))).sasi.phase = .data := by decide +kernel
theorem test_resetPort : regs (after (.sasiResetWr 0) (withSasi { dev0 .data with bufptr := 100 })).sasi = regs Sasi.reset := by
  decide +kernel
theorem test_select : -- V-SASI-2
    regs (after (.sasiSelectWr 0x03) base).sasi = regs (dev0 .selection) ∧
    regs (after (.sasiSelectWr 0x02) base).sasi = regs Sasi.reset := by decide +kernel
theorem test_sramwe : (after (.sysportSramweWr 0x31) base).sramWe = true ∧
    (after (.sysportSramweWr 0x30) { base with sramWe := true }).sramWe = false := by decide +kernel
theorem test_rtcRd : -- V-RTC-1
    (after (.rtcRegRd 0xE8A03B) { base with rtc := { Rtc.reset with mode := 9 } }).result = .byte 9 ∧
    (after (.rtcRegRd 0xE8A005) { base with inputs := { Inputs.reset with
      clocks := [⟨0, 47, 0, 0, 0, 0, 0⟩] } }).result = .byte 7 := by decide +kernel
theorem test_rtcWr : -- V-RTC-1, V-RTC-3
    (after (.rtcRegWr 0xE8A005 0xF5) { base with rtc := { Rtc.reset with mode := 1 } }).rtc.b1[2] = 5 ∧
    (after (.rtcRegWr 0xE8A01F 2) { base with rtc := { Rtc.reset with ta := 9, tb := 9 } }).rtc =
      { Rtc.reset with r15 := 2 } := by decide +kernel
theorem test_ram : (after (.ramWr 0x1000 0x5A) base).ram = [(0x1000, 0x5A)] ∧
    (after (.ramRd 0x1000) { base with ram := [(0x1000, 0x5A)] }).result = .byte 0x5A := by decide +kernel
theorem test_rom : (after (.romRd 0xFBFFFF) base).result = .byte 0xC6 ∧
    (after (.romRd 0xFFFFFF) base).result = .byte 0xB0 := by decide +kernel
theorem test_scsirom : (after (.scsiromRd 0xEA0000) base).result = .byte 0x53 ∧
    (after (.scsiromRd 0xEA0002) base).result = .byte 0xFF := by decide +kernel
theorem test_sram : -- V-SRAM-1
    (after (.sramWr 0xED0010 0x77) base).sram = [] ∧
    (after (.sramWr 0xED3FFF 1) { base with sramWe := true }).sram = [(0x3FFF, 1)] := by decide +kernel
theorem test_sramRd :
    (after (.sramRd 0xED0010) { base with sram := [(0x10, 0x77)] }).result = .byte 0x77 := by decide +kernel
theorem test_unmapped : (after (.unmappedRd 0xFC0000) base).result = .byte 0xFF ∧
    (after (.unmappedWr 0xFC0000 0x12) base).ram = [] := by decide +kernel
theorem test_extRd : (after (.extRd 0xE88001) { base with inputs := { Inputs.reset with
      extBytes := [0x3C], extEvents := [[.irqRequest .mfpTimer, .irqRequest .fdc]] } }).result = .byte 0x3C ∧
    (after (.extRd 0xE88001) { base with inputs := { Inputs.reset with
      extBytes := [0x3C], extEvents := [[.irqRequest .mfpTimer, .irqRequest .fdc]] } }).pend = 0b100 := by
  decide +kernel
theorem test_extWr : (after (.extWr 0xE84000 1) { base with inputs := { Inputs.reset with
      extEvents := [[.dmaStart 2 0x1000 0x2000 3 1 1]] } }).dma[2].active = true := by decide +kernel

-- PHASE and CDB6
theorem test_cmdbyte_sixth : -- program P1, step 11
    let d := { dev0 .command with cmd := #v[0, 0x20, 0, 0, 0, 0], cmdptr := 5 }
    regs (after (.sasiCmdbyte 0) (withSasi d)).sasi =
      regs { d with phase := .status, unit := 1, cmdptr := 0, stat := 2, error := 0x7F } ∧
    (after (.sasiCmdbyte 0) (withSasi d)).pend = 1 := by decide +kernel
theorem test_dataout : (after (.sasiDataout 0x55) (withSasi { dev0 .data with bufptr := 9, blocks := 1 })).sasi.buf[9] =
    0x55 := by decide +kernel
theorem test_dataout_flush : -- V-SASI-6
    let s := withSasi { dev0 .data with bufptr := 255, blocks := 1, sector := 2 }
    (after (.sasiDataout 0xAA) s).sasi.phase = .status ∧
    (after (.sasiDataout 0xAA) s).imgRead (some 0) 766 4 = some [0, 0xAA, 3, 4] := by decide +kernel
theorem test_vendorbyte : regs (after (.sasiVendorbyte 1) (withSasi { dev0 .vendorInit with vptr := 9 })).sasi =
    regs (dev0 .status) ∧ (after (.sasiVendorbyte 1) (withSasi (dev0 .vendorInit))).sasi.vptr = 1 := by decide +kernel
theorem test_violationWr : regs (after (.sasiViolationWr 0) (withSasi { dev0 .data with rw := true, bufptr := 3 })).sasi =
    regs { dev0 .status with rw := true, stat := 2, error := 0x20 } := by decide +kernel
theorem test_nopWr : regs (after (.sasiNopWr 1) (withSasi (dev0 .status))).sasi = regs (dev0 .status) := by decide +kernel
theorem test_datain_refill : -- program P2, step 265
    let d := { dev0 .data with rw := true, blocks := 2, bufptr := 255 }
    (after .sasiDatain (withSasi d)).sasi.buf[255] = 0x00 ∧ (after .sasiDatain (withSasi d)).sasi.buf[0] = 0x01 ∧
    (after .sasiDatain (withSasi d)).sasi.sector = 1 ∧ (after .sasiDatain (withSasi d)).sasi.blocks = 1 := by
  decide +kernel
theorem test_datain_last : -- program P2, step 521
    let d := { dev0 .data with rw := true, blocks := 1, bufptr := 255, sector := 1 }
    (after .sasiDatain (withSasi d)).sasi.phase = .status ∧ (after .sasiDatain (withSasi d)).pend = 1 := by
  decide +kernel
theorem test_statusbyte : (after .sasiStatusbyte (withSasi { dev0 .status with stat := 2 })).result = .byte 2 ∧
    (after .sasiStatusbyte (withSasi { dev0 .status with stat := 2 })).sasi.phase = .message := by decide +kernel
theorem test_msgbyte : regs (after .sasiMsgbyte (withSasi (dev0 .message))).sasi = regs Sasi.reset ∧
    (after .sasiMsgbyte (withSasi (dev0 .message))).result = .byte 0 := by decide +kernel
theorem test_sensebyte : -- V-SASI-5
    let d := { dev0 .senseStatus with sense := #v[0x7F, 0x20, 0, 0], senseptr := 1 }
    (after .sasiSensebyte (withSasi d)).result = .byte 0x20 ∧
    (after .sasiSensebyte (withSasi { d with senseptr := 3 })).sasi.phase = .status := by decide +kernel
theorem test_violationRd : -- V-SASI-10
    regs (after .sasiViolationRd (withSasi { dev0 .command with cmdptr := 3 })).sasi =
      regs { dev0 .status with stat := 2, error := 0x20 } := by decide +kernel
theorem test_nopRd : (after .sasiNopRd base).result = .byte 0 := by decide +kernel
theorem test_testReady : -- V-SASI-3, V-SASI-4
    (after (.sasiCmdTestReady ⟨0, 0, 0, 0, 0⟩) (withSasi (dev0 .command))).sasi.stat = 0 ∧
    (after (.sasiCmdTestReady ⟨0, 1, 0, 0, 0⟩) (withSasi (dev0 .command))).sasi.error = 0x7F := by decide +kernel
theorem test_recalibrate :
    (after (.sasiCmdRecalibrate ⟨0, 0, 0, 0, 0⟩) (withSasi { dev0 .command with sector := 7 })).sasi.sector = 0 ∧
    (after (.sasiCmdRecalibrate ⟨0, 1, 0, 0, 0⟩) (withSasi { dev0 .command with sector := 7 })).sasi.sector = 7 := by
  decide +kernel
theorem test_requestSense : -- V-SASI-7
    let t := after (.sasiCmdRequestSense ⟨0, 0, 0, 0, 0⟩) (withSasi { dev0 .command with error := 0x0F, sector := 4 })
    t.sasi.sense = #v[0x0F, 0, 0, 4] ∧ t.sasi.phase = .senseStatus ∧ t.sasi.error = 0 ∧ t.pend = 0 := by
  decide +kernel
theorem test_format : (after (.sasiCmdFormat ⟨0, 1, 0, 0, 0⟩) (withSasi (dev0 .command))).sasi.stat = 0 := by
  decide +kernel
theorem test_read : -- program P2, step 8
    let t := after (.sasiCmdRead ⟨0, 0, 0, 2, 0⟩) (withSasi (dev0 .command))
    t.sasi.phase = .data ∧ t.sasi.rw = true ∧ t.sasi.blocks = 2 ∧ t.sasi.buf[254] = 0xFE := by decide +kernel
theorem test_read_beyond : -- V-SASI-7
    let t := after (.sasiCmdRead ⟨0, 0, 4, 1, 0⟩) (withSasi (dev0 .command))
    t.sasi.phase = .status ∧ t.sasi.stat = 2 ∧ t.sasi.error = 0x0F := by decide +kernel
theorem test_write : -- V-SASI-6
    let t := after (.sasiCmdWrite ⟨0, 0, 2, 0, 0⟩) (withSasi (dev0 .command))
    t.sasi.phase = .data ∧ t.sasi.rw = false ∧ t.sasi.sector = 2 ∧ t.sasi.blocks = 256 := by decide +kernel
theorem test_seek : (after (.sasiCmdSeek ⟨0, 0, 0x1234, 0, 0⟩) (withSasi (dev0 .command))).sasi.sector = 0 ∧
    (after (.sasiCmdSeek ⟨0, 1, 0, 0, 0⟩) (withSasi (dev0 .command))).sasi.error = 0x7F := by decide +kernel
theorem test_vendor : (after (.sasiCmdVendorC2 ⟨0, 0, 0, 0, 0⟩) (withSasi (dev0 .command))).sasi.phase =
    .vendorInit := by decide +kernel
theorem test_unsupported : -- V-SASI-9
    (after (.sasiCmdUnsupported 0xFF ⟨0, 0, 0, 0, 0⟩) (withSasi (dev0 .command))).sasi.error = 0x20 := by
  decide +kernel
theorem test_execute : -- V-SASI-13
    (after .sasiExecute (withSasi { dev0 .command with cmd := #v[8, 0x3F, 0xFF, 0xFF, 1, 0] })).sasi.sector =
      0x1FFFFF := by decide +kernel
theorem test_enterStatus : (after .sasiEnterStatus base).pend = 1 := by decide +kernel

-- SEQ
theorem test_frameStart : -- V-SCH-1, V-SCH-6
    let s := { base with inputs := { Inputs.reset with videoModes := [0] }, sched := { Sched.reset with skipq := 2 } }
    (after .frameStart s).clk = clk0 ∧ (after .frameStart s).sched.skipq = 1 ∧
    (after .frameStart s).sched.render = false ∧ (after .frameStart s).sched.seq = .lineStart := by decide +kernel
theorem test_frameStart_undefined : refusedWith .videoModeUndefined .frameStart { base with
    inputs := { Inputs.reset with videoModes := [1] } } = true := by decide +kernel
theorem test_lineStart : -- V-SCH-1, line 3, and V-SCH-8
    let s := inFrame .lineStart { clk0 with line := 3 } { Inputs.reset with rasterLines := [3] }
    (after .lineStart s).pend = 0b000101000 ∧ (after .lineStart s).sched.seq = .slice := by decide +kernel
theorem test_lineStart_noSlice : -- V-SCH-4
    (after .lineStart (inFrame .lineStart { clk0 with count := 250 } { Inputs.reset with rasterLines := [2] })).sched.seq =
      .lineEnd := by decide +kernel
theorem test_slice : -- V-SCH-5
    let s := { inFrame .slice { clk0 with resid := 20 } (silent 7) with cfg := { cfgT with clockMult := 25 }, pend := 0b101 }
    (after .slice s).clk = { clk0 with count := 7, resid := 15, lineused := 3 } ∧ (after .slice s).pend = 0b100 ∧
    (after .slice s).calls = [.cpuExecute 100 (some (.sasi, 0x40)), .cpuReset] := by decide +kernel
theorem test_slice_notDue : refusedWith .sliceNotDue .slice base = true := by decide +kernel
theorem test_lineEnd : -- V-SCH-1, line 1
    let s := { inFrame .lineEnd { clk0 with line := 1, lineused := 250 } Inputs.reset with
      sched := { Sched.reset with seq := .lineEnd, keyCnt := 1, mouseCnt := 1 } }
    (after .lineEnd s).pend = 0b001000000 ∧ (after .lineEnd s).clk.next = 750 ∧
    (after .lineEnd s).sched.keyCnt = 0 ∧ (after .lineEnd s).sched.mouseCnt = 2 ∧
    (after .lineEnd s).emitted = [.audioAdvance 250, .scanline 1] := by decide +kernel
theorem test_frameEnd : -- V-SCH-3
    let s := inFrame .frameEnd { clk0 with line := 3, count := 1003 } { Inputs.reset with elapsedMs := [10] }
    (after .frameEnd s).clk.carry = 3 ∧ (after .frameEnd s).clk.line = 0 ∧ (after .frameEnd s).sched.seq = .idle ∧
    (after .frameEnd s).emitted = [.frameDone true] := by decide +kernel
theorem test_fastclrResolve : -- V-SCH-7
    let p := { base with sched := { Sched.reset with fastclrPending := true } }
    (after .fastclrResolve p).sched.fastclrCnt = 2 ∧ (after .fastclrResolve p).emitted = [.fastclrExecute] ∧
    (after .fastclrResolve { p with sched := { p.sched with fastclrCnt := 1 } }).sched = Sched.reset := by
  decide +kernel
theorem test_fastclrResolve_mode : -- R121: the mode is read only where the fast clear is executed
    let p := { base with sched := { Sched.reset with fastclrPending := true, mode := 77 } }
    exec .fastclrResolve p = .refused .videoModeUndefined ∧
    (after .fastclrResolve { p with sched := { p.sched with fastclrCnt := 2 } }).sched =
      { p.sched with fastclrCnt := 1 } := ⟨rfl, by decide +kernel⟩
theorem test_frameskip : -- V-SCH-6
    (after (.frameskipAdapt 40) base).sched.skipq = 2 ∧ (after (.frameskipAdapt 16) base).sched.skipq = 0 ∧
    (after (.frameskipAdapt 1600) { base with sched := { Sched.reset with skipq := 99 } }).sched.skipq = 100 := by
  decide +kernel

-- IRQ (V-IRQ-2, V-IRQ-4)
theorem test_irqRequest : (after (.irqRequest 6) base).pend = 0b001000000 ∧
    (after (.irqRequest 9) base).pend = 0 := by decide +kernel
theorem test_irqResolve : (after .irqResolve { base with pend := 0b101 }).result = .vector (some (.sasi, 0x40)) ∧
    (after .irqResolve { base with pend := 0b101 }).pend = 0b100 ∧
    (after .irqResolve base).result = .vector none := by decide +kernel

-- DMA
/-- Channel 2 armed from 0x001000 to 0x002000. -/
def armed (n : BitVec 16) (credit : BitVec 32) : State :=
  { base with
    dma := #v[DmaChannel.reset, DmaChannel.reset, ⟨0x1000, 0x2000, n, true, 1, 1, credit, false⟩]
    ram := [(0x1000, 7), (0x1001, 8)], inputs := { Inputs.reset with ready := List.replicate 8 true } }

theorem test_dmaStart : -- V-DMA-1
    (after (.dmaStart 2 0x1000 0x2000 0x100 1 1) base).dma[2] =
      ⟨0x1000, 0x2000, 0x100, true, 1, 1, 0, false⟩ ∧
    (after (.dmaStart 2 0x1000 0x2000 0 1 1) base).dma = base.dma ∧
    (after (.dmaStart 3 0x1000 0x2000 1 1 1) base).dma = base.dma ∧
    (after (.dmaStart 2 0x3000 0x4000 0x10 1 1) (armed 5 0)).dma = (armed 5 0).dma := by decide +kernel
theorem test_dmaXfer : -- V-DMA-3, V-DMA-5
    (after (.dmaXfer 2) (armed 5 0)).ram = [(0x1000, 7), (0x1001, 8), (0x2000, 7)] ∧
    (after (.dmaXfer 2) (armed 5 0)).dma[2] = ⟨0x1001, 0x2001, 4, true, 1, 1, 0, false⟩ ∧
    (after (.dmaXfer 2) (armed 1 0)).dma[2] = ⟨0x1001, 0x2001, 0, false, 1, 1, 0, true⟩ ∧
    stepPtr 0 2 = 0xFFFFFF ∧ stepPtr 5 3 = 5 := by decide +kernel
theorem test_dmaStep : -- V-DMA-2 with used 9
    (after (.dmaStep 2 9) (armed 5 0)).dma[2] = ⟨0x1002, 0x2002, 3, true, 1, 1, 1, false⟩ ∧
    (after (.dmaStep 2 9) (armed 5 0)).ram = [(0x1000, 7), (0x1001, 8), (0x2000, 7), (0x2001, 8)] := by
  decide +kernel
theorem test_dmaStep_unready : -- V-DMA-4
    (after (.dmaStep 2 9) { armed 5 3 with inputs := { Inputs.reset with ready := [false] } }).dma[2] =
      ⟨0x1000, 0x2000, 5, true, 1, 1, 0, false⟩ := by decide +kernel
theorem test_dmaStep_line : -- U10: one draw of READY for the whole of a DMA.STEP, none for an inactive channel
    (after (.dmaStep 2 12) { armed 5 0 with inputs := { Inputs.reset with ready := [true, false] } }).dma[2].count = 2 ∧
    (after (.dmaStep 2 12) { armed 5 0 with inputs := { Inputs.reset with ready := [true, false] } }).inputs.ready =
      [false] ∧
    (after (.dmaStep 0 12) (armed 5 0)).inputs = (armed 5 0).inputs := by decide +kernel
theorem test_dma_channel3 : -- U20
    (after (.dmaStep 3 9) (armed 5 3)).dma = (armed 5 3).dma ∧ (after (.dmaXfer 3) (armed 5 3)).dma = (armed 5 3).dma ∧
    (after (.dmaComplete 3) (armed 5 3)).dma = (armed 5 3).dma := by decide +kernel
theorem test_dmaComplete : (after (.dmaComplete 2) (armed 5 3)).dma[2] =
    ⟨0x1000, 0x2000, 5, false, 1, 1, 3, true⟩ := by decide +kernel

-- EVT, TICK, INTERNAL
theorem test_fastclrRequest : (after .fastclrRequest base).sched.fastclrPending = true := by decide +kernel
theorem test_readSector : -- V-FDD-2
    (after (.fddReadSector 0 1) withFloppy).result = .bytes none ∧
    (after (.fddReadSector 0 1) withFloppy).fdd[0]? = some ⟨true, true, some 0⟩ ∧
    (after (.fddReadSector 1 0) withFloppy).fdd = withFloppy.fdd := by decide +kernel
theorem test_readSector_bytes :
    (after (.fddReadSector 0 1) { withFloppy with cfg := { cfgT with fddSectorSize := 2 } }).result =
      .bytes (some [2, 3]) := by decide +kernel
theorem test_writeSector :
    let t := after (.fddWriteSector 0 1 [9, 8]) { withFloppy with cfg := { cfgT with fddSectorSize := 2 } }
    t.imgRead (some 0) 1 4 = some [1, 9, 8, 4] ∧ t.fdd = withFloppy.fdd ∧ t.result = .succeeded true := by
  decide +kernel
theorem test_rtcTick : -- V-RTC-3
    let s := { base with rtc := { Rtc.reset with r15 := 8, tb := 624990 } }
    (after (.rtcTick 50) s).rtc = { Rtc.reset with r15 := 8, ta := 50, tb := 40 } ∧ (after (.rtcTick 50) s).pend = 0x100 ∧
    (after (.rtcTick 1300000) { base with rtc := { Rtc.reset with r15 := 8 } }).rtc.tb = 50000 := by
  decide +kernel
theorem test_timersTick :
    let t := after (.timersTick 50) { base with inputs := { Inputs.reset with
      extEvents := [[.irqRequest .mfpTimer, .irqRequest .key, .fastclrRequest]] } }
    t.pend = 0b100 ∧ t.sched.fastclrPending = true ∧ t.emitted = [.extTick 50] ∧ t.rtc.ta = 50 := by decide +kernel
theorem test_imgRead : (after (.imgRead (some 0) 254 4) base).result = .bytes (some [0xFE, 0xFF, 1, 2]) ∧
    (after (.imgRead (some 0) 1024 1) base).result = .bytes none ∧
    (after (.imgRead none 0 1) base).result = .bytes none := by decide +kernel
theorem test_imgWrite : (after (.imgWrite (some 0) 1023 [5]) base).imgRead (some 0) 1022 2 = some [1, 5] ∧
    (after (.imgWrite (some 0) 1023 [5, 6]) base).result = .succeeded false := by decide +kernel
theorem test_imgOk : (after (.imgOk (some 0) 768 256) base).result = .succeeded true ∧
    (after (.imgOk (some 0) 769 256) base).result = .succeeded false := by decide +kernel

-- The step
theorem test_step_idle : step base = .next base := rfl
theorem test_step_queued : (match step { base with queue := [.port 0x1001000 0x5A, .seq 0] } with
    | .next t => t.ram == [(0x1000, 0x5A)] && t.queue == [.seq 0] | _ => false) = true := by decide +kernel
theorem test_step_microStep : (match step { inFrame .lineEnd clk0 Inputs.reset with queue := [.seq 0] } with
    | .next t => t.sched.seq == .lineStart && t.queue == [.seq 0] | _ => false) = true := by decide +kernel
theorem test_step_undecodable : (match step { base with queue := [.host 0xD []] } with
    | .refused r => r == .undecodable .reservedHostCode | _ => false) = true := by decide +kernel
theorem test_withFetchWord : (match step (base.withFetchWord 32 0x1E96007) with
    | .next t => regs t.sasi == regs Sasi.reset && t.result == .none | _ => false) = true := by decide +kernel

/-! ### States and operands that meet the hypotheses of the statements, named after them -/

/-- Between frames, with a defined video mode lined up. -/
def readyFrame : State := { base with inputs := { Inputs.reset with videoModes := [0] } }

/-- The configuration CFG_T with two images: a SASI device 1 of one block, a device 2 with no image of its handle. -/
def cfgHd : Cfg := { cfgT with hd := (cfgT.hd.set 2 (some 1)).set 5 (some 9) }

/-- A machine with that configuration, device 1 selected, and a controller state. -/
def oneBlock (d : Sasi) : State :=
  { base with cfg := cfgHd, store := [(0, excerpt), (1, ⟨256, []⟩)], sasi := { d with device := 1 } }

theorem witness_inv : base.Inv :=
  ⟨by decide +kernel, by decide +kernel, by decide +kernel, by decide +kernel, by decide +kernel, by decide +kernel,
    by decide +kernel, by decide +kernel⟩

theorem witness_DecodeEncodeAgree : 0 < cfgT.ramSize ∧ cfgT.ramSize ≤ 0xC00000 ∧
    cfgT.map = defaultMap cfgT.ramSize ∧ Instr.wf cfgT (.ramWr 0x1FFFFF 0xA5) = true ∧
    Instr.wf cfgT (.fddWriteSector 1 7 (List.replicate 1024 5)) = true := by decide +kernel
theorem witness_ReservedCodesRefused : 0xD ≤ (0xD : BitVec 4).toNat ∧ 0xD ≤ (0xF : BitVec 4).toNat ∧
    5 ≤ (5 : BitVec 3).toNat ∧ 5 ≤ (7 : BitVec 3).toNat ∧ 6 ≤ (6 : BitVec 4).toNat ∧ (8 : BitVec 4).toNat ≤ 8 ∧
    11 ≤ (11 : BitVec 4).toNat ∧ 11 ≤ (15 : BitVec 4).toNat ∧ 9 ≤ (9 : BitVec 4).toNat ∧
    9 ≤ (15 : BitVec 4).toNat ∧ base.alive = true := by decide
theorem witness_DefaultMapCovers : (0 < 1 ∧ 1 ≤ 0xC00000) ∧ 0 < 0xC00000 ∧ 0xC00000 ≤ 0xC00000 := by decide
theorem witness_StepRunsTheDecodedOperation : let s := { base with queue := [.port 0x1001000 0x5A, .seq 0] }
    (s.alive = true → s.sched.seq = .idle) ∧ s.queue = .port 0x1001000 0x5A :: [.seq 0] ∧
    decode s.cfg (.port 0x1001000 0x5A) = .ok (.ramWr 0x1000 0x5A) :=
  ⟨fun _ => rfl, rfl, by decide +kernel⟩
theorem witness_StepRunsTheFrame :
    (∀ q : Seq, (inFrame q clk0 (silent 7)).alive = true ∧ (inFrame q clk0 (silent 7)).sched.seq = q) ∧
    base.sched.seq = .idle ∧ base.queue = [] := ⟨fun _ => ⟨rfl, rfl⟩, rfl, rfl⟩
theorem witness_StepKeepsInvariant : base.Inv ∧ step base = .next base := ⟨witness_inv, rfl⟩
theorem witness_ScanlineIndexBounded : base.Inv ∧ base.LineInv ∧ drivesFrame .frameStart base = true ∧
    (∃ t, exec .frameStart readyFrame = .next t) ∧
    (inFrame .lineEnd { clk0 with line := 3 } Inputs.reset).LineInv ∧
    drivesFrame .lineEnd (inFrame .lineEnd { clk0 with line := 3 } Inputs.reset) = true ∧
    ∃ t, exec .lineEnd (inFrame .lineEnd { clk0 with line := 3 } Inputs.reset) = .next t :=
  ⟨witness_inv, by unfold State.LineInv; decide +kernel, by decide +kernel, ⟨_, rfl⟩,
    by unfold State.LineInv; decide +kernel, by decide +kernel, ⟨_, rfl⟩⟩

/-- An operation of each HOST row. -/
def someHost : List Instr :=
  [.powerOn cfgT [] [], .powerOn cfgHd [] [], .shutdown, .reset, .runFrame, .save .fast,
    .load .durable [1], .hostBusRd 0, .hostBusWr 0 1, .fddInsert 0 0, .fddEject 1, .fddGetImage 2,
    .fddSetImage 0 none, .fddIsReading 0]

/-- An operation of each BUS and PORT row. -/
def somePort : List Instr :=
  [.busRd8 0xE96001, .busWr8 0 1, .busRd16 0xFFFFFF, .busWr16 0 1, .busRd32 4, .busWr32 0 1, .sasiDataRd,
    .sasiDataWr 1, .sasiStatusRd, .sasiAckselWr 0, .sasiResetWr 0, .sasiSelectWr 1, .sysportSramweWr 0x31,
    .rtcRegRd 0xE8A01B, .rtcRegWr 0xE8A01B 1, .ramRd 0, .ramWr 0 1, .romRd 0xFE0000, .scsiromRd 0xEA0000,
    .sramRd 0xED0000, .sramWr 0xED0000 1, .unmappedRd 0x200000, .unmappedWr 0x200000 1, .extRd 0xE88001,
    .extWr 0xE88001 1]

/-- An operation of each PHASE and CDB6 row. -/
def someSasi : List Instr :=
  [.sasiCmdbyte 1, .sasiDataout 1, .sasiVendorbyte 1, .sasiViolationWr 1, .sasiNopWr 1, .sasiDatain,
    .sasiStatusbyte, .sasiMsgbyte, .sasiSensebyte, .sasiViolationRd, .sasiNopRd, .sasiCmdTestReady default,
    .sasiCmdRecalibrate default, .sasiCmdRequestSense default, .sasiCmdFormat default, .sasiCmdRead default,
    .sasiCmdWrite default, .sasiCmdSeek default, .sasiCmdVendorC2 default, .sasiCmdUnsupported 0xFF default]

/-- An operation of each other row but `SLICE`. -/
def someInner : List Instr :=
  [.frameStart, .lineStart, .lineEnd, .frameEnd, .irqRequest 8, .irqResolve, .dmaStart 0 0 0 1 1 1, .dmaStep 1 50,
    .dmaXfer 2, .dmaComplete 0, .fastclrRequest, .fddReadSector 0 0, .fddWriteSector 0 0 [], .timersTick 50,
    .rtcTick 50, .sasiExecute, .sasiEnterStatus, .imgRead (some 0) 0 4, .imgWrite none 0 [1], .imgOk (some 0) 0 4,
    .fastclrResolve, .frameskipAdapt 40]

theorem witness_EveryOperationCompletes : (someHost.all (Runnable · readyFrame) && somePort.all (Runnable · readyFrame) &&
    someSasi.all (Runnable · readyFrame) && someInner.all (Runnable · readyFrame)) = true ∧
    Runnable .slice (inFrame .slice { clk0 with count := 249 } (silent 1)) = true := by decide +kernel
theorem witness_OutsideTheDomainRefused : (∀ c r m, Instr.runFrame ≠ .powerOn c r m) ∧
    ({ base with alive := false } : State).alive = false ∧ (inFrame .slice clk0 (silent 1)).alive = true ∧
    (inFrame .slice clk0 (silent 1)).sched.seq ≠ .idle ∧
    exec (.powerOn cfgT [] []) (inFrame .slice clk0 (silent 1)) = .refused .frameInProgress :=
  ⟨nofun, rfl, rfl, nofun, rfl⟩
theorem witness_PowerOnResetsEverything : (base.alive = true → base.sched.seq = .idle) ∧
    (∀ i, ({ cfgT with bootRom := some ⟨0x1FFFF, 0, []⟩ } : Cfg).bootRom = some i → i.len ≠ 0x20000) ∧
    (∃ i, cfgT.bootRom = some i ∧ i.len = 0x20000) ∧
    (∀ i, ({ cfgT with cgRom := some ⟨0xC0001, 0, []⟩ } : Cfg).cgRom = some i → i.len ≠ 0xC0000) ∧ cfgT.wf = true ∧
    ({ cfgT with quantum := 0 } : Cfg).bootRomOk = true ∧ ({ cfgT with quantum := 0 } : Cfg).cgRomOk = true ∧
    ({ cfgT with quantum := 0 } : Cfg).paramsWf = false :=
  ⟨fun _ => rfl, fun i h => by cases h; decide, ⟨_, rfl, rfl⟩, fun i h => by cases h; decide, by decide +kernel,
    by decide +kernel, by decide +kernel, by decide +kernel⟩
theorem witness_ResetAndShutdown : base.hostReady = true := by decide +kernel
theorem witness_RunFrameCompletes : readyFrame.hostReady = true ∧ readyFrame.cfg.wf = true ∧
    readyFrame.cfg.noOverflow = true ∧
    readyFrame.cfg.videoMode? readyFrame.nextVideoMode = some ⟨0, 4, 1000, 1, 3, 16, 2⟩ ∧
    readyFrame.clk.carry.toNat ≤ readyFrame.cfg.overrunMax := by decide +kernel
theorem witness_FrameStartSetsTheFrame : readyFrame.alive = true ∧ readyFrame.cfg.wf = true ∧
    readyFrame.cfg.noOverflow = true ∧
    readyFrame.cfg.videoMode? readyFrame.nextVideoMode = some ⟨0, 4, 1000, 1, 3, 16, 2⟩ := by decide +kernel
theorem witness_LineStartRequests : let s := inFrame .lineStart { clk0 with line := 3 } Inputs.reset
    s.alive = true ∧ s.cfg.videoMode? s.sched.mode = some ⟨0, 4, 1000, 1, 3, 16, 2⟩ := by decide +kernel
theorem witness_SliceAccounts :
    let s := inFrame .slice { clk0 with count := 249 } (silent 7)
    let u := inFrame .slice clk0 (silent 7)
    s.alive = true ∧ s.cfg.wf = true ∧ s.clk.count.toNat < s.clk.next.toNat ∧
    1 = min s.cfg.quantum (s.clk.next.toNat - s.clk.count.toNat) ∧
    1 = max 1 (min s.nextBackend.consumed (1 + s.cfg.overrunMax)) ∧
    (1 : BitVec 32).toNat = (s.clk.resid.toNat + 1 * 10) / s.cfg.clockMult ∧
    u.alive = true ∧ u.clk.count.toNat < u.clk.next.toNat ∧
    100 = min u.cfg.quantum (u.clk.next.toNat - u.clk.count.toNat) ∧
    7 = max 1 (min u.nextBackend.consumed (100 + u.cfg.overrunMax)) ∧
    (7 : BitVec 32).toNat = (u.clk.resid.toNat + 7 * 10) / u.cfg.clockMult := by decide +kernel
theorem witness_LineEndActions :
    let s := { inFrame .lineEnd clk0 Inputs.reset with sched := { Sched.reset with keyCnt := 0xFFFE } }
    s.alive = true ∧ s.sched.keyCnt ≠ 0xFFFF ∧ s.sched.mouseCnt ≠ 0xFFFF := by decide +kernel
theorem witness_FrameEndCloses : let s := inFrame .frameEnd { clk0 with count := 1000 } Inputs.reset
    s.alive = true ∧ s.cfg.videoMode? s.sched.mode = some ⟨0, 4, 1000, 1, 3, 16, 2⟩ ∧
    s.clk.budget.toNat ≤ s.clk.count.toNat := by decide +kernel
theorem witness_FastClearCountsDown :
    base.alive = true ∧ base.cfg.wf = true ∧ base.cfg.videoMode? base.sched.mode = some ⟨0, 4, 1000, 1, 3, 16, 2⟩ ∧
    base.sched.fastclrPending = false ∧ (after .fastclrRequest base).sched.fastclrPending = true ∧
    (after .fastclrRequest base).sched.fastclrCnt = 0 ∧
    (after .fastclrResolve (after .fastclrRequest base)).sched.fastclrPending = true ∧
    (after .fastclrResolve (after .fastclrRequest base)).sched.fastclrCnt ≠ 0 := by decide +kernel
theorem witness_FrameskipAdapts :
    base.alive = true ∧ base.cfg.wf = true ∧ base.cfg.videoMode? base.sched.mode = some ⟨0, 4, 1000, 1, 3, 16, 2⟩ ∧
    16 < (17 : BitVec 32).toNat ∧ (16 : BitVec 32).toNat ≤ 16 := by decide +kernel
theorem witness_ThresholdsEven : 0 < clk0.nlines.toNat := by decide
theorem witness_ResidualLosesNothing : 0 < cfgT.clockMult ∧ cfgT.clockMult < 2 ^ 32 ∧
    base.clk.resid.toNat < cfgT.clockMult ∧
    base.clk.lineused.toNat + (base.clk.resid.toNat + 10 * [7, 93, 1].sum) / cfgT.clockMult < 2 ^ 32 := by
  decide +kernel
theorem witness_IrqRequestLatches : base.alive = true ∧ (0 : BitVec 4).toNat ≤ 8 ∧ (8 : BitVec 4).toNat ≤ 8 ∧
    9 ≤ (9 : BitVec 4).toNat ∧ 9 ≤ (15 : BitVec 4).toNat := by decide +kernel
theorem witness_IrqResolveDelivers : base.alive = true ∧ prioWf base.cfg.prio = true ∧ base.pend = 0 ∧
    ({ base with pend := 0b100000100 } : State).pend ≠ 0 := by decide +kernel
theorem witness_StorageBeforeTimer :
    let s := { base with pend := 0b110 }
    s.alive = true ∧ prioWf s.cfg.prio = true ∧ pending s.pend .mfpTimer = true ∧ pending s.pend .fdc = true ∧
    pending ({ base with pend := 0b101 } : State).pend .sasi = true := by decide +kernel
theorem witness_DmaStartAndComplete : (armed 1 0).alive = true ∧ (armed 1 0).dma[2].active = true ∧
    (armed 1 0).dma[0].active = false ∧ (1 : BitVec 16) ≠ 0 := by decide +kernel
theorem witness_DmaXferMovesOneByte : (armed 1 0).alive = true ∧ (armed 2 0).alive = true ∧
    ((armed 1 0).moveByte 2).dma[2].count ≠ 0 := by decide +kernel
/-- Channel 1, the SASI controller's, armed between two bytes of RAM, the controller in the Data phase. -/
def ramToRam (n : BitVec 16) (credit : BitVec 32) : State :=
  { withSasi (dev0 .data) with
    dma := #v[DmaChannel.reset, ⟨0x1000, 0x2000, n, true, 0, 0, credit, false⟩, DmaChannel.reset] }

/-- Channel 2, an external owner's, armed with stepping pointers, its owner not ready. -/
def lineDown : State := { armed 5 3 with inputs := { Inputs.reset with ready := [false] } }

theorem witness_DmaStepSettlesCredit : (armed 1 0).alive = true ∧ 1 ≤ (armed 1 0).cfg.dmaCost[2] ∧
    (armed 1 0).dma[0].active = false ∧
    ((ramToRam 3 1).cfg.dmaOwner[1] = .sasi ∧ (withSasi (dev0 .status)).sasi.phase ≠ .data) ∧
    (lineDown.dma[2].active = true ∧ lineDown.cfg.dmaOwner[2] ≠ .sasi ∧ lineDown.nextReady = false) ∧
    ((armed 1 0).dma[2].active = true ∧ (armed 1 0).cfg.dmaOwner[2] ≠ .sasi ∧ (armed 1 0).nextReady = true) ∧
    ((ramToRam 3 1).dma[1].active = true ∧ (ramToRam 3 1).sasi.phase = .data) := by decide +kernel
theorem witness_DmaStepRate :
    (let s := armed 5 0;
      s.alive = true ∧ 1 ≤ s.cfg.dmaCost[2] ∧ s.dma[2].active = true ∧ s.dma[2].count ≠ 0 ∧ s.dma[2].sstep = 1 ∧
      s.dma[2].credit.toNat + (9 : BitVec 32).toNat < 2 ^ 32 ∧ s.cfg.dmaOwner[2] ≠ .sasi ∧ s.nextReady = true ∧
      2 = min s.dma[2].count.toNat ((s.dma[2].credit.toNat + (9 : BitVec 32).toNat) / s.cfg.dmaCost[2])) ∧
    let s := ramToRam 3 1
    s.alive = true ∧ 1 ≤ s.cfg.dmaCost[1] ∧ s.dma[1].active = true ∧ s.dma[1].count ≠ 0 ∧
    s.dma[1].credit.toNat + (11 : BitVec 32).toNat < 2 ^ 32 ∧
    3 = min s.dma[1].count.toNat ((s.dma[1].credit.toNat + (11 : BitVec 32).toNat) / s.cfg.dmaCost[1]) ∧
    s.cfg.dmaOwner[1] = .sasi ∧ s.sasi.phase = .data ∧ (after (.dmaStep 1 11) s).sasi.phase = .data := by
  decide +kernel
theorem witness_SasiHandshakePorts :
    base.alive = true ∧ base.sasi.phase = .busFree ∧ (0x81 : Byte).getLsbD 0 = true ∧ (0x80 : Byte).getLsbD 7 = true ∧
    (∀ j, j < 7 → (0x80 : Byte).getLsbD j = false) ∧ (base.cfg.hd[2 * 0]?).join.isSome = true ∧
    (base.cfg.hd[2 * 7]?).join = none ∧ (base.cfg.hd[2 * 7 + 1]?).join = none ∧
    (withSasi (dev0 .selection)).sasi.phase = .selection := by decide +kernel
theorem witness_SasiStatusByte : ∀ p, (withSasi (dev0 p)).alive = true ∧ (withSasi (dev0 p)).sasi.phase = p :=
  fun _ => ⟨rfl, rfl⟩
theorem witness_DecodingChain : base.cfg.map = defaultMap base.cfg.ramSize ∧ 0 < base.cfg.ramSize ∧
    base.cfg.ramSize ≤ 0xC00000 ∧ (0x1FFFFF : Addr).toNat < base.cfg.ramSize ∧
    (base.cfg.ramSize ≤ (0x200000 : Addr).toNat ∧ (0xBFFFFF : Addr).toNat ≤ 0xBFFFFF) ∧
    (0xED4000 ≤ (0xED4000 : Addr).toNat ∧ (0xEFFFFF : Addr).toNat ≤ 0xEFFFFF) ∧
    (0xFC0000 ≤ (0xFC0000 : Addr).toNat ∧ (0xFDFFFF : Addr).toNat ≤ 0xFDFFFF) ∧
    (0xE8A000 ≤ (0xE8A000 : Addr).toNat ∧ (0xE8A000 : Addr).toNat % 2 = 0) ∧
    ((0xE8BFFF : Addr).toNat ≤ 0xE8BFFF ∧ (0xE8BFFF : Addr).toNat % 2 = 1) ∧
    (0xE96000 ≤ (0xE96000 : Addr).toNat ∧ (0xE97FFF : Addr).toNat ≤ 0xE97FFF) ∧
    (0xEA0000 ≤ (0xEA0000 : Addr).toNat ∧ (0xEA1FFF : Addr).toNat ≤ 0xEA1FFF) ∧
    (0xED0000 ≤ (0xED0000 : Addr).toNat ∧ (0xED3FFF : Addr).toNat ≤ 0xED3FFF) ∧
    (0xF00000 ≤ (0xF00000 : Addr).toNat ∧ (0xFBFFFF : Addr).toNat ≤ 0xFBFFFF) ∧
    0xFE0000 ≤ (0xFE0000 : Addr).toNat ∧ (0xE8E000 ≤ (0xE8E000 : Addr).toNat ∧ (0xE8E000 : Addr) ≠ 0xE8E00D) ∧
    ((0xE8FFFF : Addr).toNat ≤ 0xE8FFFF ∧ (0xE8FFFF : Addr) ≠ 0xE8E00D) := by decide +kernel
theorem witness_SasiCommandBytes : base.alive = true ∧ base.sasi.cmdptr.toNat = 0 ∧
    (withSasi { dev0 .command with cmdptr := 4 }).sasi.cmdptr.toNat = 4 ∧
    (withSasi { dev0 .command with cmdptr := 5 }).sasi.cmdptr = 5 := by decide +kernel
theorem witness_SasiShortCommands : let s := withSasi (dev0 .command)
    s.alive = true ∧ (s.cfg.hd[2 * s.sasi.device.toNat + 0]?).join.isSome = true ∧
    (s.cfg.hd[2 * s.sasi.device.toNat + 1]?).join = none := by decide +kernel
theorem witness_SasiReadWriteCommands : let s := withSasi (dev0 .command)
    s.alive = true ∧ (s.cfg.hd[2 * s.sasi.device.toNat + 1]?).join = none ∧
    (s.cfg.hd[2 * s.sasi.device.toNat + 0]?).join = some 0 ∧ s.imgOk (some 0) (4 * 256) 256 = false ∧
    findImage s.store 0 = some excerpt ∧ 3 * 256 + 256 ≤ excerpt.size ∧
    ((oneBlock (dev0 .command)).cfg.hd[2 * 2 + 1]?).join = some 9 ∧
    (oneBlock (dev0 .command)).imgOk (some 9) 0 256 = false := by decide +kernel
theorem witness_SasiSense : base.alive = true ∧ base.sasi.senseptr.toNat = 0 ∧
    (withSasi { dev0 .senseStatus with senseptr := 2 }).sasi.senseptr.toNat = 2 ∧
    (withSasi { dev0 .senseStatus with senseptr := 3 }).sasi.senseptr = 3 := by decide +kernel
theorem witness_SasiVendor : base.alive = true ∧ base.sasi.vptr.toNat < 9 ∧
    (withSasi { dev0 .vendorInit with vptr := 8 }).sasi.vptr.toNat < 9 ∧
    (withSasi { dev0 .vendorInit with vptr := 9 }).sasi.vptr = 9 := by decide +kernel

/-- The last byte of a Data block, `n` blocks to go, at a sector. -/
def lastByte (n : BitVec 16) (sector : BitVec 32) : State :=
  withSasi { dev0 .data with rw := true, bufptr := 255, blocks := n, sector := sector }

theorem witness_SasiDataIn :
    base.alive = true ∧ base.sasi.bufptr.toNat = 0 ∧ (withSasi { dev0 .data with bufptr := 254 }).sasi.bufptr.toNat = 254 ∧
    (lastByte 1 0).sasi.bufptr = 255 ∧ (lastByte 1 0).sasi.blocksLess = 0 ∧ (lastByte 2 3).sasi.blocksLess ≠ 0 ∧
    (lastByte 1 0).sasi.blocks ≠ 0 ∧ (lastByte 2 3).sasi.blocks ≠ 0 ∧
    (lastByte 2 3).imgOk (some 0) (((lastByte 2 3).sasi.sector + 1).toNat * 256) 256 = false ∧
    ((lastByte 2 2).cfg.hd[2 * (lastByte 2 2).sasi.device.toNat + (lastByte 2 2).sasi.unit.toNat]?).join = some 0 ∧
    findImage (lastByte 2 2).store 0 = some excerpt ∧
    ((lastByte 2 2).sasi.sector + 1).toNat * 256 + 256 ≤ excerpt.size := by decide +kernel
theorem witness_SasiDataOut :
    (lastByte 1 4).sasi.bufptr = 255 ∧ (lastByte 1 4).imgOk (some 0) ((lastByte 1 4).sasi.sector.toNat * 256) 256 = false ∧
    findImage (lastByte 2 3).store 0 = some excerpt ∧ Memory.wf excerpt.size excerpt.bytes = true ∧
    (lastByte 2 3).sasi.sector.toNat * 256 + 256 ≤ excerpt.size ∧
    excerpt.size < ((lastByte 2 3).sasi.sector + 1).toNat * 256 + 256 ∧ (lastByte 1 2).sasi.blocksLess = 0 ∧
    (lastByte 1 2).sasi.blocks ≠ 0 ∧ (lastByte 2 2).sasi.blocksLess ≠ 0 ∧ (lastByte 2 2).sasi.blocks ≠ 0 ∧
    ((lastByte 2 2).sasi.sector + 1).toNat * 256 + 256 ≤ excerpt.size := by
  decide +kernel
theorem witness_SasiStatusAndMessage : (withSasi (dev0 .status)).alive = true := by decide +kernel
theorem witness_SasiViolation : (withSasi { dev0 .data with rw := true, bufptr := 3 }).alive = true := by decide +kernel
theorem witness_SasiPhaseTable : (∃ t, exec (.busRd8 0xE96001) (withSasi (dev0 .status)) = .next t) ∧
    ∃ t, exec (.busWr8 0xE96001 8) (withSasi (dev0 .command)) = .next t := ⟨⟨_, rfl⟩, ⟨_, rfl⟩⟩
theorem witness_SasiReadRunsToTheEnd :
    let s := oneBlock { dev0 .data with rw := true, blocks := 1 }
    s.alive = true ∧ 0 < 1 ∧ s.sasi.phase = .data ∧ s.sasi.bufptr = 0 ∧ s.sasi.blocks.toNat = 1 ∧
    (s.cfg.hd[2 * s.sasi.device.toNat + s.sasi.unit.toNat]?).join = some 1 ∧
    findImage s.store 1 = some ⟨256, []⟩ ∧ (s.sasi.sector.toNat + 1) * 256 ≤ 256 ∧
    s.sasi.sector.toNat + 1 < 2 ^ 32 ∧
    (∀ j : Fin 256, s.sasi.buf[j.val] = Memory.read [] (s.sasi.sector.toNat * 256 + j.val)) := by decide +kernel
theorem witness_ImagePrimitives : base.alive = true ∧ findImage base.store 0 = some excerpt ∧
    excerpt.size < 769 + 256 ∧ 768 + 256 ≤ excerpt.size ∧ Memory.wf excerpt.size excerpt.bytes = true ∧
    findImage base.store 1 = none := by decide +kernel
theorem witness_BusIsTotal : base.alive = true ∧ base.sched.seq = .idle := by decide +kernel
theorem witness_BusWideIsBytes : base.alive = true := by decide +kernel
theorem witness_RamStores : base.alive = true ∧ Memory.wf base.cfg.ramSize base.ram = true ∧
    (0x1FFFFF : Addr).toNat < base.cfg.ramSize ∧ base.cfg.map = defaultMap base.cfg.ramSize ∧
    (0x1FFFFE : Addr) ≠ 0x1FFFFF ∧ (0x1FFFFE : Addr).toNat < base.cfg.ramSize := by decide +kernel
theorem witness_SramGated : base.alive = true ∧ base.cfg.map = defaultMap base.cfg.ramSize ∧
    base.cfg.ramSize ≤ 0xC00000 ∧ Memory.wf 0x4000 base.sram = true ∧ 0xED0000 ≤ (0xED3FFF : Addr).toNat ∧
    (0xED3FFF : Addr).toNat ≤ 0xED3FFF ∧ base.sramWe = false ∧
    ({ base with sramWe := true } : State).sramWe = true := by decide +kernel
theorem witness_ReadOnlyRegions : base.alive = true ∧ base.cfg.map = defaultMap base.cfg.ramSize ∧
    base.cfg.ramSize ≤ 0xC00000 ∧ base.cfg.bootRom = some ⟨0x20000, 0xB0, []⟩ ∧
    base.cfg.cgRom = some ⟨0xC0000, 0xC6, []⟩ ∧ 0xFE0000 ≤ (0xFE0000 : Addr).toNat ∧
    0xF00000 ≤ (0xF00000 : Addr).toNat ∧ (0xFBFFFF : Addr).toNat ≤ 0xFBFFFF ∧ 0xEA0000 ≤ (0xEA0000 : Addr).toNat ∧
    (0xEA1FFF : Addr).toNat ≤ 0xEA1FFF := by decide +kernel
theorem witness_ExtWindowsTouchOnlyEvents : base.alive = true ∧
    portDecode base.cfg.map false 0xE88001 = .extRd .mfp ∧ portDecode base.cfg.map true 0xE94001 = .extWr .fdc ∧
    portDecode base.cfg.map true 0xE84000 = .extWr .dmacRegs := by decide +kernel
theorem witness_FddMedia : withFloppy.hostReady = true ∧ withFloppy.fdd[1]? = some Fdd.reset ∧
    withFloppy.fdd.length ≤ 2 := by decide +kernel
theorem witness_FddSectors : withFloppy.alive = true ∧ withFloppy.fdd[0]? = some ⟨true, false, some 0⟩ ∧
    (∀ f, withFloppy.fdd[1]? = some f → f.inserted = false ∨ f.image = none) ∧ withFloppy.fdd[2]? = none :=
  ⟨by decide +kernel, by decide +kernel, fun f h => by cases h; exact .inl rfl, by decide +kernel⟩
theorem witness_RtcRegisters : base.alive = true ∧ ((0xE8A01B : Addr).extractLsb' 1 4).toNat = 13 ∧
    ((0xE8A01D : Addr).extractLsb' 1 4).toNat = 14 ∧ ((0xE8A01F : Addr).extractLsb' 1 4).toNat = 15 ∧
    ((0xE8A001 : Addr).extractLsb' 1 4).toNat = 0 ∧ ((0xE8A019 : Addr).extractLsb' 1 4).toNat = 12 ∧
    ({ base with rtc := { Rtc.reset with mode := 1 } } : State).rtc.mode.getLsbD 0 = true ∧
    base.rtc.mode.getLsbD 0 = false := by decide +kernel
theorem witness_RtcTimersPulse : base.alive = true ∧ 1 ≤ base.cfg.rtcPeriodA ∧ 1 ≤ base.cfg.rtcPeriodB ∧
    base.rtc.ta.toNat + (625000 : BitVec 32).toNat < 2 ^ 32 ∧
    base.rtc.tb.toNat + (625000 : BitVec 32).toNat < 2 ^ 32 := by decide +kernel
theorem witness_TimersTickFrame : base.alive = true := by decide +kernel
theorem witness_SaveHasTheStatedSize : base.hostReady = true ∧ base.fdd.length = base.cfg.numFdd ∧
    (base.saved .durable).take 6 = [0x00, 0x20, 0x41, 0xC5, 0x05, 0x43] ∧
    16833 + 2 * base.cfg.numFdd + base.cfg.ramSize < 2 ^ 32 ∧ base.fdd[1]? = some Fdd.reset := by decide +kernel
/-- A buffer of the fast mode for a machine with two drives and no RAM: its length word, then zeros. -/
def zeroStream : List Byte := beBytes 4 16787 ++ List.replicate 16783 0

theorem zeroStream_length : zeroStream.length = 16787 := by
  rw [zeroStream, List.length_append, List.length_replicate]; decide

theorem zeroStream_fields : SnapshotFields { cfgT with ramSize := 0 } .fast zeroStream := by
  unfold SnapshotFields; decide +kernel

theorem witness_LoadIsAllOrNothing : base.hostReady = true ∧
    SnapshotValid { cfgT with ramSize := 0 } .fast zeroStream ∧ ¬SnapshotValid base.cfg .durable [] ∧
    base.fdd.length = ({ cfgT with ramSize := 0 } : Cfg).numFdd ∧
    ([] : List Byte).length ≠ 16783 + 2 * base.cfg.numFdd + base.cfg.ramSize + 0 ∧ SnapMode.durable ≠ .fast ∧
    base.fdd.length = base.cfg.numFdd ∧
    exec (.save .durable) base = .next { base with result := .buffer (base.saved .durable) } :=
  ⟨by decide +kernel, ⟨⟨zeroStream_length.trans (by decide), by rw [zeroStream_length]; decide +kernel⟩, nofun,
    zeroStream_fields⟩, fun h => absurd h.1.1 (by decide), by decide +kernel, by decide +kernel, by decide,
    by decide +kernel, rfl⟩

/-- Another state between frames with the configuration of `base`. -/
def elsewhere : State := { base with ram := [(5, 5)], pend := 1, fdd := [⟨true, true, some 0⟩, Fdd.reset] }

theorem witness_SaveLoadRoundTrip : base.hostReady = true ∧ elsewhere.hostReady = true ∧ base.Inv ∧ base.LineInv ∧
    elsewhere.Inv ∧ elsewhere.cfg = base.cfg ∧ 16833 + 2 * base.cfg.numFdd + base.cfg.ramSize < 2 ^ 32 :=
  ⟨by decide +kernel, by decide +kernel, witness_inv, by unfold State.LineInv; decide +kernel,
    ⟨by decide +kernel, by decide +kernel, by decide +kernel, by decide +kernel, by decide +kernel, by decide +kernel,
      by decide +kernel, by decide +kernel⟩, rfl, by decide +kernel⟩
theorem witness_OperationsIgnoreThePast : (∃ t, exec .lineEnd (inFrame .lineEnd clk0 Inputs.reset) = .next t) ∧
    base.alive = true ∧ base.block = ({ base with calls := [], result := .none } : State).block ∧
    base.cfg = ({ base with calls := [], result := .none } : State).cfg ∧
    base ≠ { base with calls := [], result := .none } :=
  ⟨⟨_, rfl⟩, rfl, rfl, rfl, fun h => nomatch congrArg State.result h⟩

end Sys2Proof.Tests
end

section
/-! What a step fetches between frames, and O5. -/

namespace Sys2Proof.Machine

/-- 10_state R11: outside a context no frame is in progress, whatever `sched.seq` holds. -/
theorem State.inFrame_eq_false_iff (s : State) :
    s.inFrame = false ↔ (s.alive = true → s.sched.seq = .idle) := by
  simp [State.inFrame]

/-- Log 1: between frames the first request asked for is fetched, and leaves the queue. -/
theorem State.fetch_of_not_inFrame {s : State} {r : Request} {rest : List Request}
    (hidle : s.inFrame = false) (hqueue : s.queue = r :: rest) :
    s.fetch = some (r, { s with queue := rest }) := by
  simp [State.fetch, hidle, hqueue]

/-- 00_scope R8: a fetched request that decodes is performed on the state the fetch leaves. -/
theorem step_of_fetch_decode {s t : State} {r : Request} {i : Instr}
    (hfetch : s.fetch = some (r, t)) (hdecode : decode s.cfg r = .ok i) : step s = exec i t := by
  simp [step, hfetch, hdecode]

/-- Settles O5: the fetch takes the first request, and the step performs what it decodes to. -/
theorem stepRunsTheDecodedOperation : Obligations.StepRunsTheDecodedOperation := by
  intro s r rest i hseq hqueue hdecode
  have hidle : s.inFrame = false := s.inFrame_eq_false_iff.mpr hseq
  exact step_of_fetch_decode (State.fetch_of_not_inFrame hidle hqueue) hdecode

end Sys2Proof.Machine
end

section
/-! What a step performs during a frame and what it takes from the queue, and O6. -/

namespace Sys2Proof.Machine

/-- The operation a value of `sched.seq` names (30_encoding R89, 41_scheduler R100). -/
def seqInstr : Seq → Instr
  | .idle => .frameStart
  | .lineStart => .lineStart
  | .slice => .slice
  | .lineEnd => .lineEnd
  | .frameEnd => .frameEnd

/-- 30_encoding R89: the request made of `sched.seq` decodes to the operation it names. -/
theorem decode_seq_code (c : Cfg) (q : Seq) : decode c (.seq q.code) = .ok (seqInstr q) := by
  cases q <;> rfl

/-- 10_state R12: during a frame the fetch is the request of `sched.seq`, and the state is as it was. -/
theorem State.fetch_of_inFrame {s : State} (h : s.inFrame = true) :
    s.fetch = some (.seq s.sched.seq.code, s) := by
  simp [State.fetch, h]

theorem step_of_inFrame {s : State} (h : s.inFrame = true) : step s = exec (seqInstr s.sched.seq) s :=
  step_of_fetch_decode (State.fetch_of_inFrame h) (decode_seq_code _ _)

/-- The step in a context whose `sched.seq` is known and not IDLE. -/
theorem step_of_seq {s : State} {q : Seq} (halive : s.alive = true) (hq : q ≠ .idle) (hseq : s.sched.seq = q) :
    step s = exec (seqInstr q) s := by
  subst hseq
  exact step_of_inFrame (by simp [State.inFrame, halive, hq])

/-- 00_scope R4: between frames, with nothing asked for, a step does nothing. -/
theorem step_of_idle_of_queue_nil {s : State} (hseq : s.sched.seq = .idle) (hqueue : s.queue = []) :
    step s = .next s := by
  simp [step, State.fetch, State.inFrame, hseq, hqueue]

/-- Settles O6: during a frame the step is the operation `sched.seq` names; at IDLE with an empty queue it is
nothing. -/
theorem stepRunsTheFrame : Obligations.StepRunsTheFrame := fun _ =>
  ⟨fun halive => ⟨step_of_seq halive (by decide), step_of_seq halive (by decide),
    step_of_seq halive (by decide), step_of_seq halive (by decide)⟩, step_of_idle_of_queue_nil⟩

/-- What a fetch takes is at most a part of the queue. -/
theorem State.fetch_eq_some {s u : State} {r : Request} (h : s.fetch = some (r, u)) :
    ∃ q, u = { s with queue := q } := by
  unfold State.fetch at h
  split at h
  · cases h; exact ⟨s.queue, rfl⟩
  · split at h
    · cases h
    · cases h; exact ⟨_, rfl⟩

/-- 30_encoding R86: the decoder lets through only operands in the sets their rules name. -/
theorem wf_of_decode {c : Cfg} {r : Request} {i : Instr} (h : decode c r = .ok i) : i.wf c = true := by
  unfold decode at h
  split at h
  · split at h
    · cases h; assumption
    · cases h
  · cases h

/-- A step that answers a next state did nothing, or performed an operation whose operands are well formed on the
state less what was taken from the queue. -/
theorem step_eq_next {s t : State} (h : step s = .next t) :
    t = s ∨ ∃ i q, i.wf s.cfg = true ∧ exec i { s with queue := q } = .next t := by
  unfold step at h
  split at h
  · cases h; exact .inl rfl
  · rename_i r u hfetch
    obtain ⟨q, rfl⟩ := State.fetch_eq_some hfetch
    split at h
    · rename_i i hdecode
      exact .inr ⟨i, q, wf_of_decode hdecode, h⟩
    · cases h

end Sys2Proof.Machine
end

section
/-! What holds of every next state an operation answers: one rule for each way the dispatch builds an outcome. -/

namespace Sys2Proof.Machine

/-- Where the outcome is a next state, that state meets `P`; a refusal or a fault has none. -/
def NextMeets (P : State → Prop) (o : Host.Outcome State Fault Refusal) : Prop := ∀ t, o = .next t → P t

variable {P : State → Prop} {s : State} {k : Host.Outcome State Fault Refusal}

theorem NextMeets.refused (r : Refusal) : NextMeets P (.refused r) := by
  rintro _ ⟨⟩

theorem NextMeets.fault (r : Fault) : NextMeets P (.fault r) := by
  rintro _ ⟨⟩

theorem NextMeets.completes {r : Result} (h : P (s.returning r)) : NextMeets P (completes s r) := by
  rintro _ ⟨⟩
  exact h

theorem NextMeets.ite {c : Prop} [Decidable c] {l : Host.Outcome State Fault Refusal} (hk : NextMeets P k)
    (hl : NextMeets P l) : NextMeets P (if c then k else l) := by
  split
  · exact hk
  · exact hl

theorem NextMeets.inContext (h : NextMeets P k) : NextMeets P (inContext s k) :=
  .ite h (.refused _)

theorem NextMeets.betweenFrames (h : NextMeets P k) : NextMeets P (betweenFrames s k) :=
  .inContext (.ite h (.refused _))

theorem NextMeets.inMode {mode : BitVec 8} {f : VideoMode → Host.Outcome State Fault Refusal}
    (h : ∀ m, s.cfg.videoMode? mode = some m → NextMeets P (f m)) : NextMeets P (inMode s mode f) := by
  unfold Machine.inMode
  split
  · exact h _ ‹_›
  · exact .refused _

/-- `RUN_FRAME` is `FRAME_START` and then micro-steps: what the one establishes and the others keep holds at its end
(41_scheduler R100). -/
theorem State.frameLoop_induction {m : VideoMode} (hstep : ∀ s, P s → P (s.microStep m)) :
    ∀ (n : Nat) {s t : State}, P s → State.frameLoop m n s = some t → P t := by
  intro n
  induction n with
  | zero =>
    intro s t hs h
    rw [State.frameLoop] at h
    split at h
    · cases h; exact hs
    · cases h
  | succ n ih =>
    intro s t hs h
    rw [State.frameLoop] at h
    split at h
    · cases h; exact hs
    · exact ih (hstep s hs) h

theorem NextMeets.execRunFrame
    (hstart : ∀ m, s.cfg.videoMode? s.nextVideoMode = some m → P (s.frameStart s.nextVideoMode m))
    (hstep : ∀ m s, P s → P (s.microStep m)) (hreturn : ∀ s r, P s → P (s.returning r)) :
    NextMeets P (execRunFrame s) := by
  refine .betweenFrames (.inMode fun m hm => ?_)
  split
  · exact .completes (hreturn _ _ (State.frameLoop_induction (hstep m) _ (hstart m hm) ‹_›))
  · exact .fault _

end Sys2Proof.Machine
end

section
/-! What an accepted snapshot holds (46_snapshot R235). -/

namespace Sys2Proof.Machine

theorem length_of_getBytes {n : Nat} {l : List Byte} {r : List Byte × List Byte} (h : getBytes n l = some r) :
    r.1.length = n := by
  unfold getBytes at h
  split at h
  · cases h
  · cases h
    simp only [List.length_take]
    omega

/-- As many drives are read back as are asked for. -/
theorem length_of_getFdd {n : Nat} {l : List Byte} {r : List (Bool × Bool) × List Byte}
    (h : getFdd n l = some r) : r.1.length = n := by
  induction n generalizing l r with
  | zero => cases h; rfl
  | succ n ih =>
    simp only [getFdd, Option.bind_eq_bind, Option.bind_eq_some_iff] at h
    obtain ⟨_, _, _, _, rest, hrest, hr⟩ := h
    cases hr
    simp [ih hrest]

/-- 46_snapshot R235 (c): no frame is in progress in a snapshot. -/
theorem seq_of_getSched {l : List Byte} {r : Sched × List Byte} (h : getSched l = some r) : r.1.seq = .idle := by
  simp only [getSched, Option.bind_eq_bind, Option.bind_eq_some_iff] at h
  obtain ⟨_, _, _, _, _, _, _, _, _, _, _, _, _, _, _, _, h⟩ := h
  split at h
  · cases h; rfl
  · cases h

/-- What the reading of the blocks ensures: the memories are in canonical form, there is an entry for each drive, no
frame is in progress. -/
structure Snapshot.Fits (c : Cfg) (n : Snapshot) : Prop where
  sram : Memory.wf sramSize n.sram = true
  ram : Memory.wf c.ramSize n.ram = true
  drives : n.fdd.length = c.numFdd
  seq : n.sched.seq = .idle

theorem fits_of_getBlocks {c : Cfg} {mode : SnapMode} {l : List Byte} {n : Snapshot}
    (h : getBlocks c mode l = some n) : n.Fits c := by
  unfold getBlocks at h
  obtain ⟨_, _, h⟩ := Option.bind_eq_some_iff.1 h
  obtain ⟨⟨_, _⟩, _, h⟩ := Option.bind_eq_some_iff.1 h
  obtain ⟨_, _, h⟩ := Option.bind_eq_some_iff.1 h
  obtain ⟨⟨_, _⟩, hsched, h⟩ := Option.bind_eq_some_iff.1 h
  obtain ⟨_, _, h⟩ := Option.bind_eq_some_iff.1 h
  obtain ⟨⟨_, _⟩, _, h⟩ := Option.bind_eq_some_iff.1 h
  obtain ⟨_, _, h⟩ := Option.bind_eq_some_iff.1 h
  obtain ⟨⟨_, _⟩, _, h⟩ := Option.bind_eq_some_iff.1 h
  obtain ⟨_, _, h⟩ := Option.bind_eq_some_iff.1 h
  obtain ⟨⟨_, _⟩, _, h⟩ := Option.bind_eq_some_iff.1 h
  obtain ⟨_, _, h⟩ := Option.bind_eq_some_iff.1 h
  obtain ⟨⟨_, _⟩, hfdd, h⟩ := Option.bind_eq_some_iff.1 h
  obtain ⟨_, _, h⟩ := Option.bind_eq_some_iff.1 h
  obtain ⟨⟨_, _⟩, _, h⟩ := Option.bind_eq_some_iff.1 h
  obtain ⟨_, _, h⟩ := Option.bind_eq_some_iff.1 h
  obtain ⟨⟨_, _⟩, _, h⟩ := Option.bind_eq_some_iff.1 h
  obtain ⟨_, _, h⟩ := Option.bind_eq_some_iff.1 h
  obtain ⟨⟨_, _⟩, hsram, h⟩ := Option.bind_eq_some_iff.1 h
  obtain ⟨_, _, h⟩ := Option.bind_eq_some_iff.1 h
  obtain ⟨⟨_, _⟩, hram, h⟩ := Option.bind_eq_some_iff.1 h
  cases h
  exact ⟨Memory.ofBytes_wf (length_of_getBytes hsram).le, Memory.ofBytes_wf (length_of_getBytes hram).le,
    length_of_getFdd hfdd, seq_of_getSched hsched⟩

theorem DmaChannel.valid_iff (ch : DmaChannel) : ch.valid = true ↔ (ch.active = true → ch.count ≠ 0) := by
  cases h : ch.active <;> simp [DmaChannel.valid, h]

theorem Snapshot.valid_iff (c : Cfg) (n : Snapshot) :
    n.valid c = true ↔ (n.clk.line = 0 ∧ n.sched.skipq.toNat ≤ c.frameskipMax) ∧
      (∀ ch : Fin 3, n.dma[ch.val].active = true → n.dma[ch.val].count ≠ 0) ∧ n.sasi.valid = true := by
  have hdma : n.dma.toList.all DmaChannel.valid = true ↔
      ∀ ch : Fin 3, n.dma[ch.val].active = true → n.dma[ch.val].count ≠ 0 := by
    simp [DmaChannel.valid_iff, Fin.forall_iff]
  rw [Snapshot.valid, Bool.and_eq_true, Bool.and_eq_true, hdma, decide_eq_true_eq, and_assoc]

/-- What `VALID` ensures of the snapshot it accepts. -/
theorem fits_and_valid_of_parse {c : Cfg} {mode : SnapMode} {buf : List Byte} {n : Snapshot}
    (h : parseSnapshot c mode buf = some n) : n.Fits c ∧ n.valid c = true := by
  unfold parseSnapshot at h
  split at h
  · cases h
  · split at h
    · obtain ⟨hblocks, hvalid⟩ := Option.filter_eq_some_iff.1 h
      exact ⟨fits_of_getBlocks hblocks, hvalid⟩
    · cases h

end Sys2Proof.Machine
end

section
/-! The host's operations, the scheduler's micro-steps and so every operation keep the invariant, and O8. -/

namespace Sys2Proof.Machine

/-! ### The host's operations -/

/-- A channel at its reset value is idle, so its count is free (10_state R17). -/
theorem channels_reset (c : Fin 3) :
    ((Vector.replicate 3 DmaChannel.reset)[c.val]).active = true →
      ((Vector.replicate 3 DmaChannel.reset)[c.val]).count ≠ 0 := by
  simp [DmaChannel.reset]

theorem Sasi.valid_reset : Sasi.reset.valid = true := by decide

/-- What a well-formed configuration and well-formed memories make at `POWER_ON` (70_reset R270). The store is
the host's and stays. -/
theorem State.Inv.poweredOn {s : State} (h : s.Inv) {c : Cfg} {ramInit sramInit : Memory} (hc : c.wf = true)
    (hram : Memory.wf c.ramSize ramInit = true) (hsram : Memory.wf sramSize sramInit = true) :
    (s.poweredOn c ramInit sramInit).Inv :=
  ⟨hc, hram, hsram, h.store, List.length_replicate, channels_reset, Sasi.valid_reset, Nat.zero_le _⟩

theorem State.Inv.ended {s : State} (h : s.Inv) : s.ended.Inv :=
  ⟨h.cfg, h.ram, h.sram, h.store, h.drives, h.channels, h.sasi, h.skipq⟩

theorem State.Inv.wasReset {s : State} (h : s.Inv) : s.wasReset.Inv :=
  ⟨h.cfg, h.ram, h.sram, h.store, by simpa [State.wasReset] using h.drives, channels_reset,
    Sasi.valid_reset, Nat.zero_le _⟩

/-- An accepted snapshot meets what the invariant asks of the rows it restores (46_snapshot R235). -/
theorem State.Inv.restore {s : State} (h : s.Inv) {n : Snapshot} (hfits : n.Fits s.cfg)
    (hvalid : n.valid s.cfg = true) : (s.restore n).Inv := by
  obtain ⟨⟨_, hskipq⟩, hchannels, hsasi⟩ := (Snapshot.valid_iff _ _).1 hvalid
  exact ⟨h.cfg, hfits.ram, hfits.sram, h.store, by simp [State.restore, h.drives, hfits.drives], hchannels, hsasi,
    hskipq⟩

/-- The operands of `POWER_ON` the decoder lets through are memories in canonical form; the test of the configuration
is the operation's own (60_exceptions R242). -/
theorem State.Inv.execPowerOn {s : State} (h : s.Inv) {c : Cfg} {ramInit sramInit : Memory}
    (hram : Memory.wf c.ramSize ramInit = true) (hsram : Memory.wf sramSize sramInit = true) :
    NextMeets State.Inv (execPowerOn c ramInit sramInit s) := by
  unfold Machine.execPowerOn
  split
  · exact .refused _
  · split
    · exact .completes (h.ended.returning _)
    · split
      · exact .completes (h.ended.returning _)
      · split
        · have hc : c.wf = true := by simp_all [Cfg.wf]
          exact .completes ((h.poweredOn hc hram hsram).returning _)
        · exact .refused _

theorem State.Inv.execLoad {s : State} (h : s.Inv) (mode : SnapMode) (buf : List Byte) :
    NextMeets State.Inv (execLoad mode buf s) := by
  refine .betweenFrames ?_
  split
  · obtain ⟨hfits, hvalid⟩ := fits_and_valid_of_parse ‹_›
    exact .completes ((h.restore hfits hvalid).returning _)
  · exact .completes (h.returning _)

/-! ### Registers the invariant does not name, and the commands of the SASI controller -/

theorem State.Inv.sramweWrite {s : State} (h : s.Inv) (v : Byte) : (s.sramweWrite v).Inv :=
  ⟨h.cfg, h.ram, h.sram, h.store, h.drives, h.channels, h.sasi, h.skipq⟩

theorem State.Inv.rtcWrite {s : State} (h : s.Inv) (a : Addr) (v : Byte) : (s.rtcWrite a v).Inv :=
  ⟨h.cfg, h.ram, h.sram, h.store, h.drives, h.channels, h.sasi, h.skipq⟩

theorem State.Inv.requestId {s : State} (h : s.Inv) (id : BitVec 4) : (s.requestId id).Inv := by
  unfold State.requestId
  split
  · exact h.requestSrc _
  · exact h

theorem State.Inv.statusbyte {s : State} (h : s.Inv) : s.statusbyte.Inv := h.withSasi h.sasi

/-- `SASI.MSGBYTE` deselects the device, which 10_state R19 allows. -/
theorem State.Inv.msgbyte {s : State} (h : s.Inv) : s.msgbyte.Inv := by
  obtain ⟨hcmd, hbuf, hsense, hvptr, _⟩ := (Sasi.valid_iff _).1 h.sasi
  exact h.withSasi ((Sasi.valid_iff _).2 ⟨hcmd, hbuf, hsense, hvptr, .inr rfl⟩)

/-- A command operation asked for by itself is its command run on the block it carries (log 7). -/
theorem State.Inv.runBlock {s : State} (h : s.Inv) (opcode : Byte) (b : Cdb) (op : CmdOp) :
    ((s.withBlock opcode b).runCommand op).Inv := (h.withBlock opcode b).runCommand op

/-- An operation of an existing DMA channel; channel 3 does nothing (U20, log 26). -/
theorem State.Inv.onChannel {s : State} (h : s.Inv) (c : BitVec 2) {f : Fin 3 → State} (hf : ∀ ch, (f ch).Inv) :
    (match channelOf c with | some ch => f ch | none => s).Inv := by
  split
  · exact hf _
  · exact h

/-! ### The scheduler -/

/-- The clock is free, and of the scheduler's registers the invariant bounds `skipq` alone (10_state R13). -/
theorem State.Inv.withScheduler {s : State} (h : s.Inv) (k : Clock) {r : Sched}
    (hskipq : r.skipq.toNat ≤ s.cfg.frameskipMax) : ({ s with clk := k, sched := r } : State).Inv :=
  ⟨h.cfg, h.ram, h.sram, h.store, h.drives, h.channels, h.sasi, hskipq⟩

theorem State.Inv.withSeq {s : State} (h : s.Inv) (q : Seq) :
    ({ s with sched := { s.sched with seq := q } } : State).Inv := h.withScheduler s.clk h.skipq

theorem State.Inv.fastclrRequest {s : State} (h : s.Inv) : s.fastclrRequest.Inv := h.withScheduler s.clk h.skipq

theorem State.Inv.requestIf {s : State} (h : s.Inv) (b : Bool) (src : Src) : (s.requestIf b src).Inv := by
  unfold State.requestIf
  split
  · exact h.requestSrc _
  · exact h

theorem State.Inv.sliceOrEnd {s : State} (h : s.Inv) : s.sliceOrEnd.Inv := h.withSeq _

theorem State.Inv.account {s : State} (h : s.Inv) (consumed : Nat) : (s.account consumed).Inv :=
  h.withScheduler _ h.skipq

/-- 41_scheduler R101: the frame-skip counter counts down to 0 and not past it. -/
theorem Sched.startFrame_skipq_le (r : Sched) (mode : BitVec 8) :
    (r.startFrame mode).skipq.toNat ≤ r.skipq.toNat := by
  unfold Sched.startFrame
  dsimp only
  split
  · exact Nat.zero_le _
  · bv_omega

theorem State.Inv.frameStart {s : State} (h : s.Inv) (mode : BitVec 8) (m : VideoMode) :
    (s.frameStart mode m).Inv :=
  ⟨h.cfg, h.ram, h.sram, h.store, (List.length_map _).trans h.drives, h.channels, h.sasi,
    (Sched.startFrame_skipq_le _ _).trans h.skipq⟩

theorem State.Inv.lineStart {s : State} (h : s.Inv) (m : VideoMode) : (s.lineStart m).Inv := by
  have hclk : ({ s with clk := { s.clk with lineused := 0 } } : State).Inv := h.withScheduler _ h.skipq
  exact ((((hclk.requestIf _ _).requestIf _ _).drew _).requestIf _ _).sliceOrEnd

theorem State.Inv.afterBackend {s : State} (h : s.Inv) (consumed : Nat) : (s.afterBackend consumed).Inv :=
  (((((h.account consumed).dmaStep 0 _).dmaStep 1 _).dmaStep 2 _).timersTick _).sliceOrEnd

theorem State.Inv.slice {s : State} (h : s.Inv) : s.slice.Inv := (h.resolve.execute _ _).afterBackend _

theorem State.Inv.nextLine {s : State} (h : s.Inv) : s.nextLine.Inv := by
  unfold State.nextLine
  split
  · exact h.withScheduler _ h.skipq
  · exact h.withSeq _

theorem State.Inv.lineEnd {s : State} (h : s.Inv) : s.lineEnd.Inv := by
  unfold State.lineEnd
  dsimp only
  refine State.Inv.nextLine (.emit (.requestIf (.requestIf ?_ _ _) _ _) _)
  split
  · exact (h.emit _).withScheduler s.clk h.skipq
  · exact h.withScheduler s.clk h.skipq

theorem State.Inv.fastclrCounted {s : State} (h : s.Inv) : s.fastclrCounted.Inv := by
  unfold State.fastclrCounted
  split
  · exact h.withScheduler s.clk h.skipq
  · exact h

theorem State.Inv.fastclrExecuted {s : State} (h : s.Inv) (m : VideoMode) : (s.fastclrExecuted m).Inv :=
  State.Inv.emit (s := { s with sched := { s.sched with fastclrCnt := BitVec.ofNat 2 m.fastclrFrames } })
    (h.withScheduler s.clk h.skipq) _

theorem State.Inv.fastclrResolve {s : State} (h : s.Inv) (m : VideoMode) : (s.fastclrResolve m).Inv := by
  unfold State.fastclrResolve
  split
  · exact h.fastclrExecuted m
  · exact h.fastclrCounted

/-- 41_scheduler R122: the adapted counter is cut at `FRAMESKIP_MAX`. -/
theorem State.Inv.frameskipAdapt {s : State} (h : s.Inv) (m : VideoMode) (elapsedMs : BitVec 32) :
    (s.frameskipAdapt m elapsedMs).Inv := by
  have hcut (n : Nat) : (BitVec.ofNat 8 (min s.cfg.frameskipMax n)).toNat ≤ s.cfg.frameskipMax :=
    (Nat.mod_le _ _).trans (Nat.min_le_left _ _)
  unfold State.frameskipAdapt
  dsimp only
  split
  · exact (h.call _).withScheduler s.clk (hcut _)
  · exact h.call _

theorem State.Inv.frameEnd {s : State} (h : s.Inv) (m : VideoMode) : (s.frameEnd m).Inv := by
  have hresolved := h.fastclrResolve m
  have hclosed := hresolved.withScheduler
    { (s.fastclrResolve m).clk with carry := (s.fastclrResolve m).clk.overrun, line := 0 } hresolved.skipq
  exact State.Inv.withSeq (.frameskipAdapt (.drew (hclosed.emit _) _) m _) .idle

theorem State.Inv.microStep {s : State} (h : s.Inv) (m : VideoMode) : (s.microStep m).Inv := by
  unfold State.microStep
  split
  · exact h
  · exact h.lineStart m
  · exact h.slice
  · exact h.lineEnd
  · exact h.frameEnd m

theorem State.Inv.execFastclrResolve {s : State} (h : s.Inv) : NextMeets State.Inv (execFastclrResolve s) :=
  .inContext (.ite (.inMode fun m _ => .completes ((h.fastclrResolve m).returning _))
    (.completes (h.fastclrCounted.returning _)))

/-! ### Every operation -/

/-- An operation that completes keeps the invariant where the state it makes does. -/
theorem State.Inv.answer {s : State} (h : s.Inv) (r : Result) : NextMeets State.Inv (completes s r) :=
  .completes (h.returning r)

theorem exec_keeps_inv {s : State} (h : s.Inv) {i : Instr} (hwf : i.wf s.cfg = true) :
    NextMeets State.Inv (exec i s) := by
  cases i with
  | powerOn c ramInit sramInit =>
    obtain ⟨hram, hsram⟩ := Bool.and_eq_true_iff.1 hwf
    exact h.execPowerOn hram hsram
  | shutdown => exact .betweenFrames (h.ended.answer _)
  | reset => exact .betweenFrames (h.wasReset.answer _)
  | runFrame =>
    exact .execRunFrame (fun m _ => h.frameStart _ m) (fun m _ hs => hs.microStep m) fun _ r hs => hs.returning r
  | save mode => exact .betweenFrames (h.answer _)
  | load mode buf => exact h.execLoad mode buf
  | hostBusRd a => exact .betweenFrames ((h.busRd8 a).answer _)
  | hostBusWr a v => exact .betweenFrames ((h.busWr8 a v).answer _)
  | fddInsert d k => exact .betweenFrames ((h.modifyDrive d _).answer _)
  | fddEject d => exact .betweenFrames ((h.modifyDrive d _).answer _)
  | fddGetImage d => exact .betweenFrames (h.answer _)
  | fddSetImage d k => exact .betweenFrames ((h.modifyDrive d _).answer _)
  | fddIsReading d => exact .betweenFrames (h.answer _)
  | busRd8 a => exact .inContext ((h.busRd8 a).answer _)
  | busWr8 a v => exact .inContext ((h.busWr8 a v).answer _)
  | busRd16 a => exact .inContext ((h.busRd16 a).answer _)
  | busWr16 a v => exact .inContext ((h.busWr16 a v).answer _)
  | busRd32 a => exact .inContext ((h.busRd32 a).answer _)
  | busWr32 a v => exact .inContext ((h.busWr32 a v).answer _)
  | sasiDataRd => exact .inContext (h.sasiDataRd.answer _)
  | sasiDataWr v => exact .inContext ((h.sasiDataWr v).answer _)
  | sasiStatusRd => exact .inContext (h.answer _)
  | sasiAckselWr v => exact .inContext (h.sasiAcksel.answer _)
  | sasiResetWr v => exact .inContext (h.sasiReset.answer _)
  | sasiSelectWr v => exact .inContext ((h.sasiSelect v).answer _)
  | sysportSramweWr v => exact .inContext ((h.sramweWrite v).answer _)
  | rtcRegRd a => exact .inContext ((h.rtcRead a).answer _)
  | rtcRegWr a v => exact .inContext ((h.rtcWrite a v).answer _)
  | ramRd a => exact .inContext (h.answer _)
  | ramWr a v => exact .inContext ((h.ramWrite a v).answer _)
  | romRd a => exact .inContext (h.answer _)
  | scsiromRd a => exact .inContext (h.answer _)
  | sramRd a => exact .inContext (h.answer _)
  | sramWr a v => exact .inContext ((h.sramWrite a v).answer _)
  | unmappedRd a => exact .inContext (h.answer _)
  | unmappedWr a v => exact .inContext (h.answer _)
  | extRd a => exact .inContext ((h.extRead a).answer _)
  | extWr a v => exact .inContext ((h.extWrite a v).answer _)
  | sasiCmdbyte v => exact .inContext ((h.cmdbyte v).answer _)
  | sasiDataout v => exact .inContext ((h.dataout v).answer _)
  | sasiVendorbyte v => exact .inContext (h.vendorbyte.answer _)
  | sasiViolationWr v => exact .inContext (h.violate.answer _)
  | sasiNopWr v => exact .inContext (h.answer _)
  | sasiDatain => exact .inContext (h.datain.answer _)
  | sasiStatusbyte => exact .inContext (h.statusbyte.answer _)
  | sasiMsgbyte => exact .inContext (h.msgbyte.answer _)
  | sasiSensebyte => exact .inContext (h.sensebyte.answer _)
  | sasiViolationRd => exact .inContext (h.violate.answer _)
  | sasiNopRd => exact .inContext (h.answer _)
  | sasiCmdTestReady b => exact .inContext ((h.runBlock _ b .testReady).answer _)
  | sasiCmdRecalibrate b => exact .inContext ((h.runBlock _ b .recalibrate).answer _)
  | sasiCmdRequestSense b => exact .inContext ((h.runBlock _ b .requestSense).answer _)
  | sasiCmdFormat b => exact .inContext ((h.runBlock _ b .format).answer _)
  | sasiCmdRead b => exact .inContext ((h.runBlock _ b .read).answer _)
  | sasiCmdWrite b => exact .inContext ((h.runBlock _ b .write).answer _)
  | sasiCmdSeek b => exact .inContext ((h.runBlock _ b .seek).answer _)
  | sasiCmdVendorC2 b => exact .inContext ((h.runBlock _ b .vendorC2).answer _)
  | sasiCmdUnsupported op b => exact .inContext ((h.runBlock op b .unsupported).answer _)
  | frameStart => exact .inContext (.inMode fun m _ => (h.frameStart _ m).answer _)
  | lineStart => exact .inContext (.inMode fun m _ => (h.lineStart m).answer _)
  | slice => exact .inContext (.ite (h.slice.answer _) (.refused _))
  | lineEnd => exact .inContext (h.lineEnd.answer _)
  | frameEnd => exact .inContext (.inMode fun m _ => (h.frameEnd m).answer _)
  | irqRequest id => exact .inContext ((h.requestId id).answer _)
  | irqResolve => exact .inContext (h.resolve.answer _)
  | dmaStart c src dst n ss ds => exact .inContext ((h.dmaStart c src dst n ss ds).answer _)
  | dmaStep c used => exact .inContext ((h.onChannel c fun ch => h.dmaStep ch _).answer _)
  | dmaXfer c => exact .inContext ((h.onChannel c h.dmaXfer).answer _)
  | dmaComplete c => exact .inContext ((h.onChannel c h.completeChannel).answer _)
  | fastclrRequest => exact .inContext (h.fastclrRequest.answer _)
  | fddReadSector d lba => exact .inContext ((h.fddReadSector d lba).answer _)
  | fddWriteSector d lba bs => exact .inContext ((h.fddWriteSector d lba bs).answer _)
  | timersTick used => exact .inContext ((h.timersTick _).answer _)
  | rtcTick used => exact .inContext ((h.rtcTick _).answer _)
  | sasiExecute => exact .inContext (h.sasiExecute.answer _)
  | sasiEnterStatus => exact .inContext (h.enterStatus.answer _)
  | imgRead k off n => exact .inContext (h.answer _)
  | imgWrite k off bs => exact .inContext ((h.imgWrite k off bs).answer _)
  | imgOk k off n => exact .inContext (h.answer _)
  | fastclrResolve => exact h.execFastclrResolve
  | frameskipAdapt ms => exact .inContext (.inMode fun m _ => (h.frameskipAdapt m ms).answer _)

theorem State.Inv.withQueue {s : State} (h : s.Inv) (q : List Request) : ({ s with queue := q } : State).Inv :=
  ⟨h.cfg, h.ram, h.sram, h.store, h.drives, h.channels, h.sasi, h.skipq⟩

/-- Settles O8: a step does nothing or performs an operation with well-formed operands, and every such operation
keeps the invariant. -/
theorem stepKeepsInvariant : Obligations.StepKeepsInvariant := by
  intro s t hs hstep
  rcases step_eq_next hstep with rfl | ⟨i, q, hwf, hexec⟩
  · exact hs
  · exact exec_keeps_inv (hs.withQueue q) hwf t hexec

end Sys2Proof.Machine
end

section
/-! The scanline index over the host's operations and the micro-steps of a frame, and O9. -/

namespace Sys2Proof.Machine

/-- The scanline index and the scanline count are as they were. -/
structure SameLine (s t : State) : Prop where
  line : t.clk.line = s.clk.line
  nlines : t.clk.nlines = s.clk.nlines

theorem SameLine.of_clk_eq {s t : State} (h : t.clk = s.clk) : SameLine s t := ⟨by rw [h], by rw [h]⟩

theorem SameLine.trans {s t u : State} (h : SameLine s t) (k : SameLine t u) : SameLine s u :=
  ⟨k.line.trans h.line, k.nlines.trans h.nlines⟩

theorem SameLine.of_keeps {s t : State} (h : Keeps s t) : SameLine s t := .of_clk_eq h.clk

theorem SameLine.requestIf (s : State) (b : Bool) (src : Src) : SameLine s (s.requestIf b src) := by
  unfold State.requestIf
  split <;> exact ⟨rfl, rfl⟩

theorem SameLine.account (s : State) (consumed : Nat) : SameLine s (s.account consumed) := ⟨rfl, rfl⟩

theorem SameLine.sliceOrEnd (s : State) : SameLine s s.sliceOrEnd := ⟨rfl, rfl⟩

theorem SameLine.timersTick (s : State) (used : Nat) : SameLine s (s.timersTick used) := by
  have hemit (u : State) (e : OutEvent) : SameLine u (u.emit e) := ⟨rfl, rfl⟩
  exact ((SameLine.of_keeps (Keeps.rtcTick s used)).trans (hemit _ _)).trans
    (.of_keeps (State.timersTick_frame s used))

/-- 41_scheduler R104 to R107: the start of a scanline leaves the index where it is. -/
theorem SameLine.lineStart (s : State) (m : VideoMode) : SameLine s (s.lineStart m) := by
  have hclk : SameLine s { s with clk := { s.clk with lineused := 0 } } := ⟨rfl, rfl⟩
  exact (((hclk.trans (.requestIf _ _ _)).trans (.requestIf _ _ _)).trans
    (.trans (.of_keeps (.drew _ _)) (.requestIf _ _ _))).trans (.sliceOrEnd _)

theorem SameLine.afterBackend (s : State) (consumed : Nat) : SameLine s (s.afterBackend consumed) := by
  have hdma (u : State) (used : Nat) : Keeps u (((u.dmaStep 0 used).dmaStep 1 used).dmaStep 2 used) :=
    ((Keeps.dmaStep u 0 used).trans (.dmaStep _ 1 used)).trans (.dmaStep _ 2 used)
  exact (((SameLine.account s consumed).trans (.of_keeps (hdma _ _))).trans (.timersTick _ _)).trans
    (.sliceOrEnd _)

/-- 41_scheduler R108: neither the delivery of an interrupt, nor the backend, nor what follows it moves the index. -/
theorem SameLine.slice (s : State) : SameLine s s.slice :=
  (SameLine.of_keeps ((Keeps.resolve s).trans (.execute _ _ _))).trans (.afterBackend _ _)

/-! ### The bound -/

/-- `State.LineInv` as two fields, so that no proof decides which case of it a computed state falls in. -/
structure LineBound (s : State) : Prop where
  idle : s.sched.seq = .idle → s.clk.line = 0
  lt : s.sched.seq ≠ .idle → s.clk.line.toNat < s.clk.nlines.toNat

theorem State.lineInv_iff (s : State) : s.LineInv ↔ LineBound s := by
  unfold State.LineInv
  split
  · exact ⟨fun h => ⟨fun _ => h, fun hne => absurd ‹_› hne⟩, fun h => h.idle ‹_›⟩
  · exact ⟨fun h => ⟨fun heq => absurd heq ‹_›, fun _ => h⟩, fun h => h.lt ‹_›⟩

theorem LineBound.of_idle {s : State} (hseq : s.sched.seq = .idle) (hline : s.clk.line = 0) : LineBound s :=
  ⟨fun _ => hline, fun hne => absurd hseq hne⟩

theorem LineBound.of_lt {s : State} (hseq : s.sched.seq ≠ .idle)
    (hline : s.clk.line.toNat < s.clk.nlines.toNat) : LineBound s :=
  ⟨fun heq => absurd heq hseq, fun _ => hline⟩

theorem LineBound.of_sameLine {s t : State} (h : LineBound s) (k : SameLine s t) (hs : s.sched.seq ≠ .idle)
    (ht : t.sched.seq ≠ .idle) : LineBound t :=
  LineBound.of_lt ht (by rw [k.line, k.nlines]; exact h.lt hs)

/-- The clock and `sched.seq` are all the bound reads. -/
theorem LineBound.congr {s t : State} (h : LineBound s) (hclk : t.clk = s.clk)
    (hseq : t.sched.seq = s.sched.seq) : LineBound t := by
  refine ⟨?_, ?_⟩ <;> rw [hclk, hseq]
  exacts [h.idle, h.lt]

theorem LineBound.of_keeps {s t : State} (h : LineBound s) (k : Keeps s t) : LineBound t := h.congr k.clk k.seq

theorem LineBound.ended {s : State} (h : LineBound s) : LineBound s.ended := h.congr rfl rfl

theorem LineBound.returning {s : State} (h : LineBound s) (r : Result) : LineBound (s.returning r) := h.congr rfl rfl

theorem LineBound.answer {s : State} (h : LineBound s) (r : Result) : NextMeets LineBound (completes s r) :=
  .completes (h.returning r)

/-- 00_scope R5: a defined video mode has a scanline, and its count of them fits `clk.nlines`. -/
theorem lines_bounds_of_videoMode? {c : Cfg} (h : c.wf = true) {mode : BitVec 8} {m : VideoMode}
    (hm : c.videoMode? mode = some m) : 1 ≤ m.lines ∧ m.lines < 2 ^ 16 := by
  simp only [Cfg.wf, Cfg.paramsWf, Bool.and_eq_true, List.all_eq_true] at h
  obtain ⟨_, ⟨⟨⟨⟨_, hmodes⟩, _⟩, _⟩, _⟩, _⟩ := h
  have hwf := hmodes m (List.mem_of_find?_eq_some hm)
  simp only [VideoMode.wf, decide_eq_true_eq] at hwf
  exact ⟨hwf.1, hwf.2.1⟩

/-- 41_scheduler R101: a frame begins at scanline 0 of at least one. -/
theorem State.frameStart_lineBound (s : State) (mode : BitVec 8) {m : VideoMode} (hpos : 1 ≤ m.lines)
    (hlt : m.lines < 2 ^ 16) : LineBound (s.frameStart mode m) := by
  refine LineBound.of_lt (by decide : Seq.lineStart ≠ .idle) ?_
  show 0 < m.lines % 2 ^ 16
  omega

theorem State.sliceOrEnd_seq_ne_idle (s : State) : s.sliceOrEnd.sched.seq ≠ .idle := by
  rw [State.sliceOrEnd_sched]
  dsimp only
  split <;> decide

theorem State.slice_seq_ne_idle (s : State) : s.slice.sched.seq ≠ .idle := by
  unfold State.slice State.afterBackend
  exact State.sliceOrEnd_seq_ne_idle _

theorem LineBound.lineStart {s : State} (h : LineBound s) (hseq : s.sched.seq ≠ .idle) (m : VideoMode) :
    LineBound (s.lineStart m) :=
  h.of_sameLine (.lineStart s m) hseq (State.sliceOrEnd_seq_ne_idle _)

theorem LineBound.slice {s : State} (h : LineBound s) (hseq : s.sched.seq ≠ .idle) : LineBound s.slice :=
  h.of_sameLine (.slice s) hseq s.slice_seq_ne_idle

/-- 41_scheduler R119: the index advances only to a scanline that is there; past the last one the frame ends with the
index where it was. -/
theorem State.nextLine_lineBound {s : State} (h : s.clk.line.toNat < s.clk.nlines.toNat) : LineBound s.nextLine := by
  unfold State.nextLine
  split
  · refine LineBound.of_lt (by decide : Seq.lineStart ≠ .idle) ?_
    dsimp only
    bv_omega
  · exact LineBound.of_lt (by decide : Seq.frameEnd ≠ .idle) h

theorem LineBound.lineEnd {s : State} (h : LineBound s) (hseq : s.sched.seq ≠ .idle) : LineBound s.lineEnd := by
  have hsame (u : State) (hu : SameLine s u) : LineBound u.nextLine :=
    State.nextLine_lineBound (by rw [hu.line, hu.nlines]; exact h.lt hseq)
  unfold State.lineEnd
  dsimp only
  refine hsame _ (.trans ?_ ((SameLine.requestIf _ _ _).trans ((SameLine.requestIf _ _ _).trans (.of_clk_eq rfl))))
  split <;> exact ⟨rfl, rfl⟩

/-- 41_scheduler R120: the end of a frame puts the index back to 0 and `sched.seq` to IDLE. -/
theorem State.frameEnd_lineBound (s : State) (m : VideoMode) : LineBound (s.frameEnd m) := by
  refine LineBound.of_idle rfl ?_
  unfold State.frameEnd
  dsimp only
  rw [frameskipAdapt_eq]
  rfl

theorem LineBound.microStep {s : State} (h : LineBound s) (m : VideoMode) : LineBound (s.microStep m) := by
  unfold State.microStep
  split
  · exact h
  next hseq => exact h.lineStart (by simp [hseq]) m
  next hseq => exact h.slice (by simp [hseq])
  next hseq => exact h.lineEnd (by simp [hseq])
  · exact State.frameEnd_lineBound s m

/-! ### The operations -/

/-- Where `POWER_ON` fails there is no context, and the clock is as it was (70_reset R271). -/
theorem LineBound.execPowerOn {s : State} (h : LineBound s) (c : Cfg) (ramInit sramInit : Memory) :
    NextMeets LineBound (execPowerOn c ramInit sramInit s) :=
  .ite (.refused _) (.ite (h.ended.answer _) (.ite (h.ended.answer _)
    (.ite (.completes (LineBound.of_idle rfl rfl)) (.refused _))))

/-- 46_snapshot R235 (c): a snapshot is of a machine between frames, at scanline 0. -/
theorem LineBound.execLoad {s : State} (h : LineBound s) (mode : SnapMode) (buf : List Byte) :
    NextMeets LineBound (execLoad mode buf s) := by
  refine .betweenFrames ?_
  split
  · obtain ⟨hfits, hvalid⟩ := fits_and_valid_of_parse ‹_›
    obtain ⟨⟨hline, _⟩, _⟩ := (Snapshot.valid_iff _ _).1 hvalid
    exact .completes (LineBound.of_idle hfits.seq hline)
  · exact h.answer _

theorem seq_ne_idle_of_beq {s : State} {q : Seq} (h : (s.sched.seq == q) = true) (hq : q ≠ .idle) :
    s.sched.seq ≠ .idle := by
  rwa [eq_of_beq h]

/-- Settles O9: outside a frame only `FRAME_START` moves the machine into one, at scanline 0; in a frame `LINE_END`
advances the index below the count and `FRAME_END` clears it; nothing else moves it. -/
theorem scanlineIndexBounded : Obligations.ScanlineIndexBounded := by
  intro i s t hs hlineInv hdrives hexec
  have hline := s.lineInv_iff.1 hlineInv
  have hstart (mode : BitVec 8) (m : VideoMode) (hm : s.cfg.videoMode? mode = some m) :
      LineBound (s.frameStart mode m) :=
    have ⟨hpos, hlt⟩ := lines_bounds_of_videoMode? hs.cfg hm
    s.frameStart_lineBound mode hpos hlt
  suffices h : NextMeets LineBound (exec i s) from t.lineInv_iff.2 (h t hexec)
  cases i with
  | powerOn c ramInit sramInit => exact hline.execPowerOn c ramInit sramInit
  | shutdown => exact .betweenFrames (hline.ended.answer _)
  | reset => exact .betweenFrames (.completes (LineBound.of_idle rfl rfl))
  | runFrame => exact .execRunFrame (hstart _) (fun m _ h => h.microStep m) fun _ r h => h.returning r
  | save mode => exact .betweenFrames (hline.answer _)
  | load mode buf => exact hline.execLoad mode buf
  | hostBusRd a => exact .betweenFrames ((hline.of_keeps (.busRd8 s a)).answer _)
  | hostBusWr a v => exact .betweenFrames ((hline.of_keeps (.busWr8 s a v)).answer _)
  | fddInsert d k => exact .betweenFrames ((hline.of_keeps (.modifyDrive s d _)).answer _)
  | fddEject d => exact .betweenFrames ((hline.of_keeps (.modifyDrive s d _)).answer _)
  | fddGetImage d => exact .betweenFrames (hline.answer _)
  | fddSetImage d k => exact .betweenFrames ((hline.of_keeps (.modifyDrive s d _)).answer _)
  | fddIsReading d => exact .betweenFrames (hline.answer _)
  | frameStart => exact .inContext (.inMode fun m hm => (hstart _ m hm).answer _)
  | lineStart =>
    exact .inContext (.inMode fun m _ => (hline.lineStart (seq_ne_idle_of_beq hdrives (by decide)) m).answer _)
  | slice =>
    exact .inContext (.ite ((hline.slice (seq_ne_idle_of_beq hdrives (by decide))).answer _) (.refused _))
  | lineEnd => exact .inContext ((hline.lineEnd (seq_ne_idle_of_beq hdrives (by decide))).answer _)
  | frameEnd => exact .inContext (.inMode fun m _ => (s.frameEnd_lineBound m).answer _)
  | _ => cases hdrives

end Sys2Proof.Machine
end

section
/-! The cover of an address map (20_memory R47), and O4. -/

namespace Sys2Proof.Machine

theorem mapCovers_nil (lo : Nat) : mapCovers lo [] = true ↔ lo = 0x1000000 := by
  simp [mapCovers]

theorem mapCovers_cons (lo : Nat) (r : Region) (rs : List Region) :
    mapCovers lo (r :: rs) = true ↔ (r.lo = lo ∧ lo ≤ r.hi) ∧ mapCovers (r.hi + 1) rs = true := by
  simp [mapCovers]

/-- 20_memory R47: rows that follow each other from `lo` on hold each address from `lo` on once, and none below it. -/
theorem countP_of_mapCovers {rs : List Region} {lo a : Nat} (h : mapCovers lo rs = true) (ha : a < 0x1000000) :
    rs.countP (fun r => decide (r.lo ≤ a ∧ a ≤ r.hi)) = if lo ≤ a then 1 else 0 := by
  induction rs generalizing lo with
  | nil =>
    have hlo : lo = 0x1000000 := (mapCovers_nil lo).1 h
    rw [List.countP_nil, if_neg (by omega)]
  | cons r rs ih =>
    obtain ⟨⟨rfl, hle⟩, hrest⟩ := (mapCovers_cons lo r rs).1 h
    rw [List.countP_cons, ih hrest]
    by_cases hin : r.lo ≤ a ∧ a ≤ r.hi
    · rw [if_neg (by omega), if_pos (decide_eq_true hin), if_pos hin.1]
    · rw [if_neg (mt of_decide_eq_true hin), Nat.add_zero]
      exact if_congr (by omega) rfl rfl

/-- 20_memory R47: the default map follows through from address 0, whether its second row is there or RAM fills the
whole range. -/
theorem mapCovers_defaultMap {ramSize : Nat} (hpos : 0 < ramSize) (hle : ramSize ≤ 0xC00000) :
    mapCovers 0 (defaultMap ramSize) = true := by
  obtain hlt | rfl := hle.lt_or_eq
  · have hram : ramSize - 1 + 1 = ramSize := by omega
    have hrow : ramSize ≤ 0xBFFFFF := by omega
    simp [defaultMap, hlt, mapCovers, hram, hrow]
  · decide

/-- Settles O4: the default map covers, and a map that covers holds each address once. -/
theorem defaultMapCovers : Obligations.DefaultMapCovers := fun _ a hpos hle => by
  rw [countP_of_mapCovers (mapCovers_defaultMap hpos hle) a.isLt, if_pos (Nat.zero_le _)]

end Sys2Proof.Machine
end

section
/-! What the bus operations answer in a context, and O45. -/

namespace Sys2Proof.Machine

/-- 70_reset R271: in a context an operation that completes answers the state it leaves with its result. -/
theorem inContext_completes {s : State} (h : s.alive = true) (u : State) (r : Result) :
    inContext s (completes u r) = .next (u.returning r) := if_pos h

/-- 70_reset R280: at IDLE an operation of the host is one like any other. -/
theorem betweenFrames_of_idle {s : State} (h : s.sched.seq = .idle) (k : Host.Outcome State Fault Refusal) :
    betweenFrames s k = inContext s k := by
  rw [betweenFrames, if_pos h]

/-- 20_memory R62: between frames the host's bus read is `BUS.RD8`. -/
theorem exec_hostBusRd {s : State} (h : s.sched.seq = .idle) (a : Addr) :
    exec (.hostBusRd a) s = exec (.busRd8 a) s := betweenFrames_of_idle h _

/-- 20_memory R62: between frames the host's bus write is `BUS.WR8`. -/
theorem exec_hostBusWr {s : State} (h : s.sched.seq = .idle) (a : Addr) (v : Byte) :
    exec (.hostBusWr a v) s = exec (.busWr8 a v) s := betweenFrames_of_idle h _

section
variable {s : State} (h : s.alive = true) (a : Addr)
include h

theorem exec_busRd8 : exec (.busRd8 a) s = .next ((s.busRd8 a).2.returning (.byte (s.busRd8 a).1)) :=
  inContext_completes h _ _

theorem exec_busWr8 (v : Byte) : exec (.busWr8 a v) s = .next ((s.busWr8 a v).returning .none) :=
  inContext_completes h _ _

theorem exec_busRd16 : exec (.busRd16 a) s = .next ((s.busRd16 a).2.returning (.half (s.busRd16 a).1)) :=
  inContext_completes h _ _

theorem exec_busWr16 (v : BitVec 16) : exec (.busWr16 a v) s = .next ((s.busWr16 a v).returning .none) :=
  inContext_completes h _ _

theorem exec_busRd32 : exec (.busRd32 a) s = .next ((s.busRd32 a).2.returning (.word (s.busRd32 a).1)) :=
  inContext_completes h _ _

theorem exec_busWr32 (v : BitVec 32) : exec (.busWr32 a v) s = .next ((s.busWr32 a v).returning .none) :=
  inContext_completes h _ _

end

/-- Settles O45: the equation of each bus operation names its next state and its result. -/
theorem busIsTotal : Obligations.BusIsTotal := fun _ a v w l halive =>
  ⟨⟨_, _, exec_busRd8 halive a, State.returning_result _ _⟩,
    ⟨_, exec_busWr8 halive a v, State.returning_result _ _⟩,
    ⟨_, _, exec_busRd16 halive a, State.returning_result _ _⟩,
    ⟨_, exec_busWr16 halive a w, State.returning_result _ _⟩,
    ⟨_, _, exec_busRd32 halive a, State.returning_result _ _⟩,
    ⟨_, exec_busWr32 halive a l, State.returning_result _ _⟩,
    fun hidle => ⟨exec_hostBusRd hidle a, exec_hostBusWr hidle a v⟩⟩

end Sys2Proof.Machine
end

section
/-! The fields of the encoder's words, as the decoder reads them back (30_encoding R72 to R76, 20_memory R44). -/

namespace Sys2Proof.Machine

/-! ### Fields of a concatenation -/

theorem extractLsb'_append_skip {n m : Nat} (x : BitVec n) (y : BitVec m) (start len : Nat) :
    (x ++ y).extractLsb' (start + m) len = x.extractLsb' start len := by
  rw [BitVec.extractLsb'_append_eq_of_le (Nat.le_add_left m start), Nat.add_sub_cancel]

theorem extractLsb'_append_middle {n m l : Nat} (x : BitVec n) (y : BitVec m) (z : BitVec l) :
    (x ++ y ++ z).extractLsb' l m = y := by
  rw [BitVec.extractLsb'_append_eq_of_le le_rfl, Nat.sub_self, BitVec.extractLsb'_append_eq_right]

theorem extractLsb'_append_adjacent {n : Nat} (w : BitVec n) (start len len' : Nat) :
    w.extractLsb' (start + len) len' ++ w.extractLsb' start len = w.extractLsb' start (len' + len) :=
  BitVec.extractLsb'_append_extractLsb'_eq_extractLsb' rfl

/-! ### Transaction words -/

@[simp] theorem busRw_busWord (rw : Bool) (a : Addr) (v : Byte) : busRw (busWord rw a v) = rw := by
  unfold busRw busWord
  rw [BitVec.getLsbD_append, BitVec.getLsbD_append]
  simp

@[simp] theorem busAddr_busWord (rw : Bool) (a : Addr) (v : Byte) : busAddr (busWord rw a v) = a :=
  extractLsb'_append_middle _ _ _

@[simp] theorem busData_busWord (rw : Bool) (a : Addr) (v : Byte) : busData (busWord rw a v) = v :=
  BitVec.extractLsb'_append_eq_right

@[simp] theorem hiByte_append_loByte (v : BitVec 16) : hiByte v ++ loByte v = v :=
  BitVec.extractLsb'_append_extractLsb'

@[simp] theorem wordByte_append (v : BitVec 32) :
    wordByte v 0 ++ wordByte v 1 ++ wordByte v 2 ++ wordByte v 3 = v := by
  simp only [wordByte]
  rw [extractLsb'_append_adjacent v 16 8 8, extractLsb'_append_adjacent v 8 8 16,
    extractLsb'_append_adjacent v 0 8 24]
  exact BitVec.extractLsb'_eq_self

/-! ### Port keys and phase keys -/

@[simp] theorem portKey_rw (rw : Bool) (a : Addr) : (portKey rw a).getLsbD 24 = rw := by
  unfold portKey
  rw [BitVec.getLsbD_append]
  simp

@[simp] theorem portKey_addr (rw : Bool) (a : Addr) : (portKey rw a).extractLsb' 0 24 = a :=
  BitVec.extractLsb'_append_eq_right

/-- 30_encoding R74: the four bits between the two flags are the phase code, a reserved one too. -/
theorem phaseKey_code (rw : Bool) (code : BitVec 4) (toMaster : Bool) :
    (BitVec.ofBool rw ++ code ++ BitVec.ofBool toMaster).extractLsb' 1 4 = code :=
  extractLsb'_append_middle _ _ _

theorem phaseKey_rw (rw : Bool) (p : Phase) (toMaster : Bool) : (phaseKey rw p toMaster).getLsbD 5 = rw := by
  unfold phaseKey
  rw [BitVec.getLsbD_append, BitVec.getLsbD_append]
  simp

theorem phaseKey_toMaster (rw : Bool) (p : Phase) (toMaster : Bool) :
    (phaseKey rw p toMaster).getLsbD 0 = toMaster := by
  unfold phaseKey
  rw [BitVec.getLsbD_append]
  simp

/-! ### Command blocks -/

@[simp] theorem blockByte_block (op : Byte) (b : Cdb) : blockByte (b.block op) 0 = op :=
  calc blockByte (b.block op) 0
    _ = (op ++ b.ignored ++ b.unit ++ b.sector ++ b.blocks).extractLsb' 32 8 := extractLsb'_append_skip _ _ 32 8
    _ = (op ++ b.ignored ++ b.unit ++ b.sector).extractLsb' 24 8 := extractLsb'_append_skip _ _ 24 8
    _ = (op ++ b.ignored ++ b.unit).extractLsb' 3 8 := extractLsb'_append_skip _ _ 3 8
    _ = (op ++ b.ignored).extractLsb' 2 8 := extractLsb'_append_skip _ _ 2 8
    _ = op := BitVec.extractLsb'_append_eq_left

@[simp] theorem Cdb.ofBlock_block (op : Byte) (b : Cdb) : Cdb.ofBlock (b.block op) = b := by
  obtain ⟨ignored, unit, sector, blocks, control⟩ := b
  have skip (start len : Nat) :
      (op ++ ignored ++ unit ++ sector ++ blocks ++ control).extractLsb' (start + 16) len =
        (op ++ ignored ++ unit ++ sector).extractLsb' start len :=
    (extractLsb'_append_skip _ control (start + 8) len).trans (extractLsb'_append_skip _ blocks start len)
  simp only [Cdb.ofBlock, Cdb.block, Cdb.mk.injEq]
  exact ⟨(skip 22 2).trans ((extractLsb'_append_skip _ sector 1 2).trans (extractLsb'_append_middle _ _ _)),
    (skip 21 1).trans (extractLsb'_append_middle _ _ _), (skip 0 21).trans BitVec.extractLsb'_append_eq_right,
    extractLsb'_append_middle _ _ _, BitVec.extractLsb'_append_eq_right⟩

/-- 30_encoding R76: the opcode byte and the fields are the whole of a command block. -/
theorem Cdb.block_ofBlock (w : BitVec 48) : (Cdb.ofBlock w).block (blockByte w 0) = w := by
  simp only [Cdb.ofBlock, Cdb.block, blockByte]
  rw [extractLsb'_append_adjacent w 38 2 8, extractLsb'_append_adjacent w 37 1 10,
    extractLsb'_append_adjacent w 16 21 11, extractLsb'_append_adjacent w 8 8 32,
    extractLsb'_append_adjacent w 0 8 40]
  exact BitVec.extractLsb'_eq_self

/-- 30_encoding R76: the bytes of the 48-bit block are the bytes of the command buffer. -/
theorem blockByte_sasi_block (d : Sasi) {i : Nat} (hi : i < 6) : blockByte d.block i = d.cmdByte i := by
  have skip {n : Nat} (x : BitVec n) (y : Byte) (start : Nat) :
      (x ++ y).extractLsb' (start + 8) 8 = x.extractLsb' start 8 := extractLsb'_append_skip x y start 8
  have last {n : Nat} (x : BitVec n) (y : Byte) : (x ++ y).extractLsb' 0 8 = y := BitVec.extractLsb'_append_eq_right
  unfold blockByte Sasi.block
  match i, hi with
  | 0, _ => exact (skip _ _ 32).trans ((skip _ _ 24).trans ((skip _ _ 16).trans ((skip _ _ 8).trans
      BitVec.extractLsb'_append_eq_left)))
  | 1, _ => exact (skip _ _ 24).trans ((skip _ _ 16).trans ((skip _ _ 8).trans ((skip _ _ 0).trans (last _ _))))
  | 2, _ => exact (skip _ _ 16).trans ((skip _ _ 8).trans ((skip _ _ 0).trans (last _ _)))
  | 3, _ => exact (skip _ _ 8).trans ((skip _ _ 0).trans (last _ _))
  | 4, _ => exact (skip _ _ 0).trans (last _ _)
  | 5, _ => exact last _ _

/-- The command buffer is the one its block makes (30_encoding R76). -/
theorem cmdOfBlock_sasi_block (d : Sasi) : cmdOfBlock d.block = d.cmd := by
  have hbyte (i : Nat) (hi : i < 6) : blockByte d.block i = d.cmd[i] := by
    rw [blockByte_sasi_block d hi, Sasi.cmdByte, Vector.getElem?_eq_getElem hi, Option.getD_some]
  refine Vector.ext fun i hi => ?_
  match i, hi with
  | 0, h | 1, h | 2, h | 3, h | 4, h | 5, h => exact hbyte _ h

end Sys2Proof.Machine
end

section
/-! The decoder in two steps: a code table of 30_encoding gives the operation's code, and the code with the operands
its word carries is an operation. -/

namespace Sys2Proof.Machine

/-- The operation of a port code at an address, with the data byte of a write (30_encoding R73). -/
def portInstr (a : Addr) (v : Byte) : PortOp → Instr
  | .sasiDataRd => .sasiDataRd
  | .sasiDataWr => .sasiDataWr v
  | .sasiStatusRd => .sasiStatusRd
  | .sasiAckselWr => .sasiAckselWr v
  | .sasiResetWr => .sasiResetWr v
  | .sasiSelectWr => .sasiSelectWr v
  | .sysportSramweWr => .sysportSramweWr v
  | .rtcRegRd => .rtcRegRd a
  | .rtcRegWr => .rtcRegWr a v
  | .ramRd => .ramRd a
  | .ramWr => .ramWr a v
  | .romRd => .romRd a
  | .scsiromRd => .scsiromRd a
  | .sramRd => .sramRd a
  | .sramWr => .sramWr a v
  | .unmappedRd => .unmappedRd a
  | .unmappedWr => .unmappedWr a v
  | .extRd _ => .extRd a
  | .extWr _ => .extWr a v

/-- 30_encoding R73: a port key decodes by the port its direction and address reach. -/
theorem decodePort_portKey (map : List Region) (rw : Bool) (a : Addr) (v : Byte) :
    decodePort map (portKey rw a) v = portInstr a v (portDecode map rw a) := by
  unfold decodePort
  rw [portKey_rw, portKey_addr]
  rfl

/-- The operation of a phase code, with the data byte of a write (30_encoding R74). -/
def phaseInstr (v : Byte) : PhaseOp → Instr
  | .cmdbyte => .sasiCmdbyte v
  | .dataout => .sasiDataout v
  | .vendorbyte => .sasiVendorbyte v
  | .violationWr => .sasiViolationWr v
  | .nopWr => .sasiNopWr v
  | .datain => .sasiDatain
  | .statusbyte => .sasiStatusbyte
  | .msgbyte => .sasiMsgbyte
  | .sensebyte => .sasiSensebyte
  | .violationRd => .sasiViolationRd
  | .nopRd => .sasiNopRd

theorem Phase.ofCode_code (p : Phase) : Phase.ofCode p.code = some p := by
  cases p <;> rfl

/-- 30_encoding R74: a phase key decodes by the controller's phase, the direction and `sasi.rw`. -/
theorem decodePhase_phaseKey (rw : Bool) (p : Phase) (toMaster : Bool) (v : Byte) :
    decodePhase (phaseKey rw p toMaster) v = .ok (phaseInstr v (phaseOpOf rw p toMaster)) := by
  have hcode : (phaseKey rw p toMaster).extractLsb' 1 4 = p.code := phaseKey_code _ _ _
  unfold decodePhase
  rw [hcode, Phase.ofCode_code, phaseKey_rw, phaseKey_toMaster]
  dsimp only
  cases phaseOpOf rw p toMaster <;> rfl

/-- 30_encoding R86: a phase key with a reserved code names no operation. -/
theorem decodePhase_of_ofCode_eq_none {code : BitVec 4} (h : Phase.ofCode code = none) (rw toMaster : Bool) (v : Byte) :
    decodePhase (BitVec.ofBool rw ++ code ++ BitVec.ofBool toMaster) v = .error .reservedPhaseCode := by
  unfold decodePhase
  rw [phaseKey_code, h]

/-- The operation of a command code on a command block (30_encoding R77). -/
def cmdInstr (op : Byte) (b : Cdb) : CmdOp → Instr
  | .testReady => .sasiCmdTestReady b
  | .recalibrate => .sasiCmdRecalibrate b
  | .requestSense => .sasiCmdRequestSense b
  | .format => .sasiCmdFormat b
  | .read => .sasiCmdRead b
  | .write => .sasiCmdWrite b
  | .seek => .sasiCmdSeek b
  | .vendorC2 => .sasiCmdVendorC2 b
  | .unsupported => .sasiCmdUnsupported op b

/-- 30_encoding R77: a command block decodes by its opcode byte. -/
theorem decodeCdb6_eq (w : BitVec 48) :
    decodeCdb6 w = cmdInstr (blockByte w 0) (Cdb.ofBlock w) (cmdOpOf (blockByte w 0)) := by
  unfold decodeCdb6
  dsimp only
  cases cmdOpOf (blockByte w 0) <;> rfl

end Sys2Proof.Machine
end

section
/-! The rows of the default map by address (20_memory R47). -/

namespace Sys2Proof.Machine

/-- A row of a map that follows through from `lo` begins at or above `lo`. -/
theorem le_lo_of_mapCovers {rs : List Region} {lo : Nat} (h : mapCovers lo rs = true) {r : Region} (hr : r ∈ rs) :
    lo ≤ r.lo := by
  induction rs generalizing lo with
  | nil => cases hr
  | cons q qs ih =>
    obtain ⟨⟨hlo, hle⟩, hrest⟩ := (mapCovers_cons lo q qs).1 h
    rcases List.mem_cons.1 hr with rfl | hr
    · exact hlo.ge
    · have := ih hrest hr
      omega

/-- 20_memory R47: in a map that covers without overlap the region of an address is whichever row holds it. -/
theorem regionAt_of_mapCovers {rs : List Region} {lo : Nat} (h : mapCovers lo rs = true) {r : Region} (hr : r ∈ rs)
    {a : Addr} (hlo : r.lo ≤ a.toNat) (hhi : a.toNat ≤ r.hi) : regionAt rs a = some r := by
  induction rs generalizing lo with
  | nil => cases hr
  | cons q qs ih =>
    obtain ⟨⟨_, _⟩, hrest⟩ := (mapCovers_cons lo q qs).1 h
    unfold regionAt
    rcases List.mem_cons.1 hr with rfl | hr
    · exact List.find?_cons_of_pos (decide_eq_true ⟨hlo, hhi⟩)
    · have habove : q.hi + 1 ≤ r.lo := le_lo_of_mapCovers hrest hr
      rw [List.find?_cons_of_neg (by rw [decide_eq_true_eq]; omega)]
      exact ih hrest hr

/-- 30_encoding R73: the port of an address in a row of the default map is the one its kind has at its offset. -/
theorem portDecode_defaultMap {n : Nat} (hpos : 0 < n) (hle : n ≤ 0xC00000) {r : Region} (hr : r ∈ defaultMap n)
    {a : Addr} (hlo : r.lo ≤ a.toNat) (hhi : a.toNat ≤ r.hi) (rw : Bool) :
    portDecode (defaultMap n) rw a = portOf r.kind rw (a.toNat - r.lo) a := by
  have hregion := regionAt_of_mapCovers (mapCovers_defaultMap hpos hle) hr hlo hhi
  simp [portDecode, kindAt, offsetAt, hregion]

/-- The rows of the default map do not depend on the fitted RAM from 0xC00000 on: they are those above a RAM that fills
its whole range. -/
theorem mem_defaultMap_of_mem_tail {r : Region} (h : r ∈ (defaultMap 0xC00000).tail) (n : Nat) : r ∈ defaultMap n :=
  List.mem_cons_of_mem _ (List.mem_append_right _ h)

/-- 20_memory R51: the ports of the SASI window. -/
theorem portDecode_sasiWindow {n : Nat} (hpos : 0 < n) (hle : n ≤ 0xC00000) {a : Addr} {off : Nat}
    (ha : a.toNat = 0xE96000 + off) (hoff : off < 0x2000) (rw : Bool) :
    portDecode (defaultMap n) rw a = sasiPort rw off := by
  have h := portDecode_defaultMap hpos hle (r := ⟨0xE96000, 0xE97FFF, .sasi⟩) (a := a)
    (mem_defaultMap_of_mem_tail (by decide) n) (by dsimp only; omega) (by dsimp only; omega) rw
  rw [h, ha, Nat.add_sub_cancel_left]
  rfl

/-- 45_peripheral R216: at the write-enable key's offset the system-port window takes a write and no read. -/
theorem portDecode_sramweAddr {n : Nat} (hpos : 0 < n) (hle : n ≤ 0xC00000) (rw : Bool) :
    portDecode (defaultMap n) rw sramweAddr = if rw then .sysportSramweWr else .unmappedRd := by
  have ha : sramweAddr.toNat = 0xE8E000 + 0xD := rfl
  have h := portDecode_defaultMap hpos hle (r := ⟨0xE8E000, 0xE8FFFF, .sysport⟩) (a := sramweAddr)
    (mem_defaultMap_of_mem_tail (by decide) n) (by dsimp only; omega) (by dsimp only; omega) rw
  rw [h, ha, Nat.add_sub_cancel_left]
  rfl

end Sys2Proof.Machine
end

section
/-! The decoder reads back what the encoder writes, format by format, and O1. -/

namespace Sys2Proof.Machine

theorem decode_of_decodeWord {c : Cfg} {r : Request} {i : Instr} (h : decodeWord c r = .ok i) (hwf : i.wf c = true) :
    decode c r = .ok i := by
  simp [decode, h, hwf]

theorem decodeWord_port {c : Cfg} {rw : Bool} {a : Addr} {op : PortOp} (h : portDecode c.map rw a = op) (v : Byte) :
    decodeWord c (.port (portKey rw a) v) = .ok (portInstr a v op) := by
  rw [← h, ← decodePort_portKey]
  rfl

theorem decodeWord_phase (c : Cfg) (rw : Bool) (p : Phase) (toMaster : Bool) (v : Byte) :
    decodeWord c (.phase (phaseKey rw p toMaster) v) = .ok (phaseInstr v (phaseOpOf rw p toMaster)) :=
  decodePhase_phaseKey rw p toMaster v

theorem decodeWord_cdb6 (c : Cfg) {op : Byte} {k : CmdOp} (h : cmdOpOf op = k) (b : Cdb) :
    decodeWord c (.cdb6 (b.block op)) = .ok (cmdInstr op b k) := by
  rw [← h]
  simp [decodeWord, decodeCdb6_eq]

theorem wf_extRd_iff (c : Cfg) (a : Addr) :
    Instr.wf c (.extRd a) = true ↔ ∃ x, portDecode c.map false a = .extRd x := by
  simp only [Instr.wf]
  split <;> simp_all

theorem wf_extWr_iff (c : Cfg) (a : Addr) (v : Byte) :
    Instr.wf c (.extWr a v) = true ↔ ∃ x, portDecode c.map true a = .extWr x := by
  simp only [Instr.wf]
  split <;> simp_all

/-- The word of an operation carries its code and every operand. Of the address of a port operation well-formedness
says which port it reaches; a port with one address has it in the default map. -/
theorem decodeWord_encode {c : Cfg} {i : Instr} (hpos : 0 < c.ramSize) (hle : c.ramSize ≤ 0xC00000)
    (hmap : c.map = defaultMap c.ramSize) (hwf : i.wf c = true) : decodeWord c (encode i) = .ok i := by
  have hsasi (rw : Bool) (a : Addr) (off : Nat) (ha : a.toNat = 0xE96000 + off) (hoff : off < 0x2000) :
      portDecode c.map rw a = sasiPort rw off := hmap ▸ portDecode_sasiWindow hpos hle ha hoff rw
  cases i with
  -- words of a code alone, and arguments that have the operand's own type
  | shutdown | reset | runFrame | frameStart | lineStart | slice | lineEnd | frameEnd | irqResolve | fastclrRequest
  | sasiExecute | sasiEnterStatus | fastclrResolve => rfl
  | powerOn cfg ramInit sramInit | save mode | load mode buf => rfl
  | fddInsert d h | fddEject d | fddGetImage d | fddSetImage d h | fddIsReading d => rfl
  | irqRequest id | dmaXfer ch | dmaComplete ch => rfl
  | fddReadSector d lba | fddWriteSector d lba bs => rfl
  | imgRead h off n | imgWrite h off bs | imgOk h off n => rfl
  -- numbers that are read at the operand's width
  | hostBusRd a | hostBusWr a v => simp [encode, decodeWord, decodeHost]
  | dmaStart ch src dst count ss ds | dmaStep ch used => simp [encode, decodeWord, decodeDma]
  | timersTick used | rtcTick used => simp [encode, decodeWord, decodeTick]
  | frameskipAdapt ms => simp [encode, decodeWord, decodeInternal]
  -- transaction words
  | busRd8 a | busRd16 a | busRd32 a | busWr8 a v | busWr16 a v | busWr32 a v =>
    simp [encode, decodeWord, decodeBus]
  -- ports with one address
  | sasiDataRd => exact decodeWord_port (hsasi false sasiDataAddr 1 rfl (by decide)) _
  | sasiStatusRd => exact decodeWord_port (hsasi false sasiStatusAddr 3 rfl (by decide)) _
  | sasiDataWr v => exact decodeWord_port (hsasi true sasiDataAddr 1 rfl (by decide)) _
  | sasiAckselWr v => exact decodeWord_port (hsasi true sasiStatusAddr 3 rfl (by decide)) _
  | sasiResetWr v => exact decodeWord_port (hsasi true sasiResetAddr 5 rfl (by decide)) _
  | sasiSelectWr v => exact decodeWord_port (hsasi true sasiSelectAddr 7 rfl (by decide)) _
  | sysportSramweWr v => exact decodeWord_port (hmap ▸ portDecode_sramweAddr hpos hle true) _
  -- ports whose operand is the address
  | rtcRegRd a | ramRd a | romRd a | scsiromRd a | sramRd a | unmappedRd a =>
    exact decodeWord_port (of_decide_eq_true hwf) _
  | rtcRegWr a v | ramWr a v | sramWr a v | unmappedWr a v => exact decodeWord_port (of_decide_eq_true hwf) _
  | extRd a =>
    obtain ⟨x, hx⟩ := (wf_extRd_iff c a).1 hwf
    exact decodeWord_port hx _
  | extWr a v =>
    obtain ⟨x, hx⟩ := (wf_extWr_iff c a v).1 hwf
    exact decodeWord_port hx _
  -- phase keys
  | sasiCmdbyte v | sasiDataout v | sasiVendorbyte v | sasiViolationWr v | sasiNopWr v =>
    exact decodeWord_phase _ _ _ _ _
  | sasiDatain | sasiStatusbyte | sasiMsgbyte | sasiSensebyte | sasiViolationRd | sasiNopRd =>
    exact decodeWord_phase _ _ _ _ _
  -- command blocks
  | sasiCmdTestReady b | sasiCmdRecalibrate b | sasiCmdRequestSense b | sasiCmdFormat b | sasiCmdRead b
  | sasiCmdWrite b | sasiCmdSeek b | sasiCmdVendorC2 b => exact decodeWord_cdb6 c rfl b
  | sasiCmdUnsupported op b => exact decodeWord_cdb6 c (of_decide_eq_true hwf) b

/-- Settles O1: the decoder checks operands that are well formed, of the operation the encoder's word names. -/
theorem decodeEncodeAgree : Obligations.DecodeEncodeAgree := fun _ _ hpos hle hmap hwf =>
  decode_of_decodeWord (decodeWord_encode hpos hle hmap hwf) hwf

end Sys2Proof.Machine
end

section
/-! Words written out from the tables of 30_encoding, the reserved codes, and O2 and O3. -/

namespace Sys2Proof.Machine

/-- Settles O2: each word is read through its code table to its operation. -/
theorem wordsDecode : Obligations.WordsDecode := ⟨rfl, rfl, rfl, rfl, rfl, rfl, rfl, rfl, rfl⟩

/-! ### Codes that name no operation -/

theorem decode_of_decodeWord_error {c : Cfg} {r : Request} {e : DecodeError} (h : decodeWord c r = .error e) :
    decode c r = .error e := by
  simp [decode, h]

/-- 30_encoding R86: the HOST codes past the thirteen entry points, whatever the arguments. -/
theorem decodeHost_reserved {code : BitVec 4} (h : 0xD ≤ code.toNat) (args : List Arg) :
    decodeHost code args = .error .reservedHostCode := by
  have hcode : code = 0xD ∨ code = 0xE ∨ code = 0xF := by bv_omega
  rcases hcode with rfl | rfl | rfl <;> rfl

/-- 30_encoding R89: the sequencing codes past the five values of `sched.seq`. -/
theorem decodeSeq_reserved {code : BitVec 3} (h : 5 ≤ code.toNat) : decodeSeq code = .error .reservedSeqCode := by
  have hcode : code = 5 ∨ code = 6 ∨ code = 7 := by bv_omega
  rcases hcode with rfl | rfl | rfl <;> rfl

/-- 30_encoding R74: the codes that are no phase. -/
theorem Phase.ofCode_reserved {code : BitVec 4} (h : (6 ≤ code.toNat ∧ code.toNat ≤ 8) ∨ 11 ≤ code.toNat) :
    Phase.ofCode code = none := by
  unfold Phase.ofCode
  split
  case h_9 => rfl
  all_goals omega

/-! ### Reserved source ids -/

/-- 30_encoding R81: the ids past the nine sources. -/
theorem Src.ofId_reserved {id : BitVec 4} (h : 9 ≤ id.toNat) : Src.ofId id = none :=
  List.getElem?_eq_none h

/-- 42_interrupt R130: event code 3 takes an id of no source, and makes the same request as the IRQ format. -/
theorem decodeEvt_of_ofId_eq_none {id : BitVec 4} (h : Src.ofId id = none) :
    decodeEvt 3 [.nat id.toNat] = .ok (.irqRequest id) := by
  have hevent : eventSource id = true := by simp [eventSource, h]
  simp [decodeEvt, hevent]

/-- 42_interrupt R130: in a context a request for no source changes nothing but the result of the operation before. -/
theorem exec_irqRequest_of_ofId_eq_none {s : State} {id : BitVec 4} (halive : s.alive = true)
    (h : Src.ofId id = none) : exec (.irqRequest id) s = .next { s with result := .none } := by
  have hid : s.requestId id = s := by simp [State.requestId, h]
  exact (inContext_completes halive _ _).trans (by rw [hid]; rfl)

/-- Settles O3: the reserved codes are rows their code tables lack; a reserved source id is an operand of an operation
that looks it up and finds no source. -/
theorem reservedCodesRefused : Obligations.ReservedCodesRefused := by
  refine ⟨fun c code args h => ?_, fun c code h => ?_, fun c rw code d v h => ?_, fun c id h => ?_⟩
  · exact decode_of_decodeWord_error (decodeHost_reserved h args)
  · exact decode_of_decodeWord_error (decodeSeq_reserved h)
  · exact decode_of_decodeWord_error (decodePhase_of_ofCode_eq_none (Phase.ofCode_reserved h) rw d v)
  · have hid := Src.ofId_reserved h
    exact ⟨rfl, decode_of_decodeWord (decodeEvt_of_ofId_eq_none hid) rfl,
      fun s halive => exec_irqRequest_of_ofId_eq_none halive hid⟩

end Sys2Proof.Machine
end

section
/-! The bus, the SASI data port and the SASI command decode and then perform an operation: their meanings are those of
the operations the code tables name (30_encoding R70). -/

namespace Sys2Proof.Machine

/-! ### A byte transaction is its port operation -/

/-- Whether a port code is one of a read (30_encoding R73). -/
def PortOp.isRead : PortOp → Bool
  | .sasiDataRd | .sasiStatusRd | .rtcRegRd | .ramRd | .romRd | .scsiromRd | .sramRd | .unmappedRd | .extRd _ => true
  | .sasiDataWr | .sasiAckselWr | .sasiResetWr | .sasiSelectWr | .sysportSramweWr | .rtcRegWr | .ramWr | .sramWr
  | .unmappedWr | .extWr _ => false

theorem isRead_unmappedOp (rw : Bool) : PortOp.isRead (unmappedOp rw) = !rw := by
  cases rw <;> rfl

theorem isRead_sasiPort (rw : Bool) (off : Nat) : PortOp.isRead (sasiPort rw off) = !rw := by
  cases rw with
  | false =>
    simp only [sasiPort, Bool.false_eq_true, and_false, if_false]
    split_ifs <;> rfl
  | true =>
    simp only [sasiPort, and_true, if_true]
    split_ifs <;> rfl

theorem isRead_portOf (kind : RegionKind) (rw : Bool) (off : Nat) (a : Addr) :
    PortOp.isRead (portOf kind rw off a) = !rw := by
  cases kind with
  | sasi => exact isRead_sasiPort rw off
  | unmapped => exact isRead_unmappedOp rw
  | sysport | rtc =>
    unfold portOf
    dsimp only
    split <;> cases rw <;> rfl
  | ram | bootRom | cgRom | scsiRom | sram => cases rw <;> rfl
  | ext x => cases rw <;> rfl

/-- 30_encoding R73: a read reaches a read port and a write a write port. -/
theorem isRead_portDecode (map : List Region) (rw : Bool) (a : Addr) :
    PortOp.isRead (portDecode map rw a) = !rw := isRead_portOf _ _ _ _

theorem exec_busRd8_eq_portInstr (s : State) (a : Addr) :
    exec (.busRd8 a) s = exec (portInstr a 0 (portDecode s.cfg.map false a)) s := by
  have hread := isRead_portDecode s.cfg.map false a
  have hbus : exec (.busRd8 a) s = inContext s (completes (s.busRd8 a).2 (.byte (s.busRd8 a).1)) := rfl
  rw [hbus, State.busRd8]
  cases hop : portDecode s.cfg.map false a with
  | sasiDataRd | sasiStatusRd | rtcRegRd | ramRd | romRd | scsiromRd | sramRd | unmappedRd => rfl
  | extRd x => rfl
  | _ => rw [hop] at hread; cases hread

theorem exec_busWr8_eq_portInstr (s : State) (a : Addr) (v : Byte) :
    exec (.busWr8 a v) s = exec (portInstr a v (portDecode s.cfg.map true a)) s := by
  have hread := isRead_portDecode s.cfg.map true a
  have hbus : exec (.busWr8 a v) s = inContext s (completes (s.busWr8 a v) .none) := rfl
  rw [hbus, State.busWr8]
  cases hop : portDecode s.cfg.map true a with
  | sasiDataWr | sasiAckselWr | sasiResetWr | sasiSelectWr | sysportSramweWr | rtcRegWr | ramWr | sramWr
  | unmappedWr => rfl
  | extWr x => rfl
  | _ => rw [hop] at hread; cases hread

/-! ### A data-port access is its phase operation -/

/-- 44_sasi R160: a read of the data port is the operation of the controller's phase. -/
theorem exec_sasiDataRd_eq_phaseInstr (s : State) :
    exec .sasiDataRd s = exec (phaseInstr 0 (phaseOpOf false s.sasi.phase s.sasi.rw)) s := by
  have hport : exec .sasiDataRd s = inContext s (completes s.sasiDataRd.2 (.byte s.sasiDataRd.1)) := rfl
  rw [hport, State.sasiDataRd]
  cases s.sasi.phase with
  | data => cases s.sasi.rw <;> rfl
  | _ => rfl

/-- 44_sasi R160: a write of the data port is the operation of the controller's phase. -/
theorem exec_sasiDataWr_eq_phaseInstr (s : State) (v : Byte) :
    exec (.sasiDataWr v) s = exec (phaseInstr v (phaseOpOf true s.sasi.phase s.sasi.rw)) s := by
  have hport : exec (.sasiDataWr v) s = inContext s (completes (s.sasiDataWr v) .none) := rfl
  rw [hport, State.sasiDataWr]
  cases s.sasi.phase with
  | data => cases s.sasi.rw <;> rfl
  | _ => rfl

/-! ### The execution of a command is its command operation -/

/-- 30_encoding R77: but for the unsupported one, a command has one opcode byte. -/
theorem exec_cmdInstr (op : Byte) (b : Cdb) (s : State) :
    exec (cmdInstr op b (cmdOpOf op)) s =
      inContext s (completes ((s.withBlock op b).runCommand (cmdOpOf op)) .none) := by
  have hop {n : Nat} (h : op.toNat = n) : op = BitVec.ofNat 8 n := by rw [← h, BitVec.ofNat_toNat, BitVec.setWidth_eq]
  unfold cmdOpOf
  split
  case h_9 => rfl
  all_goals rw [hop ‹_›]; rfl

/-- The block in the command buffer put there again is no change, so only the unit is latched (44_sasi R166). -/
theorem State.withBlock_self (s : State) :
    s.withBlock (blockByte s.sasi.block 0) (Cdb.ofBlock s.sasi.block) = s.latchUnit := by
  rw [State.withBlock, Cdb.block_ofBlock, cmdOfBlock_sasi_block]
  rfl

/-- 44_sasi R166: `SASI.EXECUTE` is the command the 48 bits of the command buffer decode to. -/
theorem exec_sasiExecute (s : State) : exec .sasiExecute s = exec (decodeCdb6 s.sasi.block) s := by
  have hopcode : blockByte s.sasi.block 0 = s.sasi.opcode := blockByte_sasi_block _ (by decide)
  rw [decodeCdb6_eq, exec_cmdInstr, State.withBlock_self, hopcode]
  rfl

end Sys2Proof.Machine
end

section
/-! Which operation the bus performs at each address of the default map (20_memory R47, R51), and O46. -/

namespace Sys2Proof.Machine

/-- A byte read and a byte write at an address are these two operations. -/
def BusPerforms (s : State) (a : Addr) (v : Byte) (rd wr : Instr) : Prop :=
  exec (.busRd8 a) s = exec rd s ∧ exec (.busWr8 a v) s = exec wr s

/-- The configuration has the default map of 20_memory R47 over the RAM it has. -/
structure HasDefaultMap (c : Cfg) : Prop where
  map : c.map = defaultMap c.ramSize
  pos : 0 < c.ramSize
  le : c.ramSize ≤ 0xC00000

theorem busPerforms_of_portDecode {s : State} {a : Addr} {op : Bool → PortOp}
    (h : ∀ rw, portDecode s.cfg.map rw a = op rw) (v : Byte) :
    BusPerforms s a v (portInstr a 0 (op false)) (portInstr a v (op true)) := by
  refine ⟨?_, ?_⟩
  · rw [exec_busRd8_eq_portInstr, h]
  · rw [exec_busWr8_eq_portInstr, h]

/-! ### Kinds of region whose port depends on the address -/

/-- 30_encoding R73: an odd address of the real-time clock's window is a register. -/
theorem portOf_rtc_odd {a : Addr} (h : a.toNat % 2 = 1) (rw : Bool) (off : Nat) :
    portOf .rtc rw off a = if rw then .rtcRegWr else .rtcRegRd :=
  if_pos (by simp [BitVec.getLsbD, Nat.testBit_zero, h])

/-- 30_encoding R73: an even address of the real-time clock's window is none. -/
theorem portOf_rtc_even {a : Addr} (h : a.toNat % 2 = 0) (rw : Bool) (off : Nat) :
    portOf .rtc rw off a = unmappedOp rw :=
  if_neg (by simp [BitVec.getLsbD, Nat.testBit_zero, h])

/-- 20_memory R51: the ports of the SASI window that answer a read, by address. -/
theorem portInstr_sasiPort_read {a : Addr} (hlo : 0xE96000 ≤ a.toNat) (v : Byte) :
    portInstr a v (sasiPort false (a.toNat - 0xE96000)) =
      if a = 0xE96001 then .sasiDataRd else if a = 0xE96003 then .sasiStatusRd else .unmappedRd a := by
  have hdata : a.toNat - 0xE96000 = 1 ↔ a = 0xE96001 := by bv_omega
  have hstatus : a.toNat - 0xE96000 = 3 ↔ a = 0xE96003 := by bv_omega
  simp only [sasiPort, hdata, hstatus, Bool.false_eq_true, and_false, if_false]
  split_ifs <;> rfl

/-- 20_memory R51: the ports of the SASI window that take a write, by address. -/
theorem portInstr_sasiPort_write {a : Addr} (hlo : 0xE96000 ≤ a.toNat) (v : Byte) :
    portInstr a v (sasiPort true (a.toNat - 0xE96000)) =
      if a = 0xE96001 then .sasiDataWr v else if a = 0xE96003 then .sasiAckselWr v
      else if a = 0xE96005 then .sasiResetWr v else if a = 0xE96007 then .sasiSelectWr v
      else .unmappedWr a v := by
  have hdata : a.toNat - 0xE96000 = 1 ↔ a = 0xE96001 := by bv_omega
  have hacksel : a.toNat - 0xE96000 = 3 ↔ a = 0xE96003 := by bv_omega
  have hreset : a.toNat - 0xE96000 = 5 ↔ a = 0xE96005 := by bv_omega
  have hselect : a.toNat - 0xE96000 = 7 ↔ a = 0xE96007 := by bv_omega
  simp only [sasiPort, hdata, hacksel, hreset, hselect, and_true, if_true]
  split_ifs <;> rfl

/-- The kind of the row an external window is in: the system-port window shares its row with the write-enable key
(20_memory R47, 45_peripheral R216). -/
def windowKind : ExtWindow → RegionKind
  | .sysportOther => .sysport
  | x => .ext x

/-- The port of a transaction with the device behind an external window (40_bus R99). -/
def extOp (x : ExtWindow) (rw : Bool) : PortOp := if rw then .extWr x else .extRd x

theorem portOf_windowKind {x : ExtWindow} {off : Nat} (h : x = .sysportOther → off ≠ 0xD) (rw : Bool) (a : Addr) :
    portOf (windowKind x) rw off a = extOp x rw := by
  cases x with
  | sysportOther => exact if_neg (h rfl)
  | _ => rfl

/-- 20_memory R47: the addresses of an external window, but for the write-enable key, reach its device. -/
theorem portDecode_extWindow {n : Nat} (hpos : 0 < n) (hle : n ≤ 0xC00000) {x : ExtWindow} {lo hi : Nat}
    (hr : ⟨lo, hi, windowKind x⟩ ∈ (defaultMap 0xC00000).tail) {a : Addr} (hlo : lo ≤ a.toNat) (hhi : a.toNat ≤ hi)
    (hkey : a ≠ 0xE8E00D) (rw : Bool) : portDecode (defaultMap n) rw a = extOp x rw := by
  have hsysport : ∀ r ∈ (defaultMap 0xC00000).tail, r.kind = .sysport → r.lo = 0xE8E000 := by decide
  refine (portDecode_defaultMap hpos hle (mem_defaultMap_of_mem_tail hr n) hlo hhi rw).trans
    (portOf_windowKind (fun hx => ?_) rw a)
  have hlo' : lo = 0xE8E000 := hsysport _ hr (by rw [hx]; rfl)
  dsimp only
  bv_omega

/-! ### The clauses, window by window -/

section
variable {s : State} (hs : HasDefaultMap s.cfg)
include hs

/-- 30_encoding R73: a transaction in a row of the default map is the operation of the row's kind at its offset. -/
theorem busPerforms_of_mem {r : Region} (hr : r ∈ defaultMap s.cfg.ramSize) {a : Addr} (hlo : r.lo ≤ a.toNat)
    (hhi : a.toNat ≤ r.hi) (v : Byte) :
    BusPerforms s a v (portInstr a 0 (portOf r.kind false (a.toNat - r.lo) a))
      (portInstr a v (portOf r.kind true (a.toNat - r.lo) a)) :=
  busPerforms_of_portDecode (by rw [hs.map]; exact portDecode_defaultMap hs.pos hs.le hr hlo hhi) v

/-- The rows above RAM's range. -/
theorem busPerforms_of_row (lo hi : Nat) (k : RegionKind) (hr : ⟨lo, hi, k⟩ ∈ (defaultMap 0xC00000).tail) {a : Addr}
    (hlo : lo ≤ a.toNat) (hhi : a.toNat ≤ hi) (v : Byte) :
    BusPerforms s a v (portInstr a 0 (portOf k false (a.toNat - lo) a))
      (portInstr a v (portOf k true (a.toNat - lo) a)) :=
  busPerforms_of_mem hs (mem_defaultMap_of_mem_tail hr _) hlo hhi v

theorem busPerforms_ram {a : Addr} (h : a.toNat < s.cfg.ramSize) (v : Byte) :
    BusPerforms s a v (.ramRd a) (.ramWr a v) :=
  busPerforms_of_mem hs (r := ⟨0, s.cfg.ramSize - 1, .ram⟩) List.mem_cons_self (Nat.zero_le _) (Nat.le_sub_one_of_lt h) v

/-- 20_memory R47: RAM's range past the fitted RAM and the two holes among the fixed rows. -/
theorem busPerforms_unmapped {a : Addr} (h : s.cfg.ramSize ≤ a.toNat ∧ a.toNat ≤ 0xBFFFFF ∨
      0xED4000 ≤ a.toNat ∧ a.toNat ≤ 0xEFFFFF ∨ 0xFC0000 ≤ a.toNat ∧ a.toNat ≤ 0xFDFFFF) (v : Byte) :
    BusPerforms s a v (.unmappedRd a) (.unmappedWr a v) := by
  rcases h with ⟨hlo, hhi⟩ | ⟨hlo, hhi⟩ | ⟨hlo, hhi⟩
  · have hlt : s.cfg.ramSize < 0xC00000 := by omega
    have hr : ⟨s.cfg.ramSize, 0xBFFFFF, .unmapped⟩ ∈ defaultMap s.cfg.ramSize := by simp [defaultMap, hlt]
    exact busPerforms_of_mem hs hr hlo hhi v
  · exact busPerforms_of_row hs 0xED4000 0xEFFFFF .unmapped (by decide) hlo hhi v
  · exact busPerforms_of_row hs 0xFC0000 0xFDFFFF .unmapped (by decide) hlo hhi v

theorem busPerforms_rtc_odd {a : Addr} (hlo : 0xE8A000 ≤ a.toNat) (hhi : a.toNat ≤ 0xE8BFFF) (h : a.toNat % 2 = 1)
    (v : Byte) : BusPerforms s a v (.rtcRegRd a) (.rtcRegWr a v) := by
  have hrow := busPerforms_of_row hs 0xE8A000 0xE8BFFF .rtc (by decide) hlo hhi v
  rwa [portOf_rtc_odd h, portOf_rtc_odd h] at hrow

theorem busPerforms_rtc_even {a : Addr} (hlo : 0xE8A000 ≤ a.toNat) (hhi : a.toNat ≤ 0xE8BFFF) (h : a.toNat % 2 = 0)
    (v : Byte) : BusPerforms s a v (.unmappedRd a) (.unmappedWr a v) := by
  have hrow := busPerforms_of_row hs 0xE8A000 0xE8BFFF .rtc (by decide) hlo hhi v
  rwa [portOf_rtc_even h, portOf_rtc_even h] at hrow

theorem busPerforms_sramwe (v : Byte) : BusPerforms s sramweAddr v (.unmappedRd sramweAddr) (.sysportSramweWr v) :=
  busPerforms_of_portDecode (op := fun rw => if rw then .sysportSramweWr else .unmappedRd)
    (by rw [hs.map]; exact portDecode_sramweAddr hs.pos hs.le) v

theorem busPerforms_sasi {a : Addr} (hlo : 0xE96000 ≤ a.toNat) (hhi : a.toNat ≤ 0xE97FFF) (v : Byte) :
    BusPerforms s a v
      (if a = 0xE96001 then .sasiDataRd else if a = 0xE96003 then .sasiStatusRd else .unmappedRd a)
      (if a = 0xE96001 then .sasiDataWr v else if a = 0xE96003 then .sasiAckselWr v
        else if a = 0xE96005 then .sasiResetWr v else if a = 0xE96007 then .sasiSelectWr v
        else .unmappedWr a v) := by
  rw [← portInstr_sasiPort_read hlo 0, ← portInstr_sasiPort_write hlo v]
  exact busPerforms_of_row hs 0xE96000 0xE97FFF .sasi (by decide) hlo hhi v

/-- 20_memory R49: the character-generator ROM and the boot ROM. -/
theorem busPerforms_rom {a : Addr} (h : 0xF00000 ≤ a.toNat ∧ a.toNat ≤ 0xFBFFFF ∨ 0xFE0000 ≤ a.toNat) (v : Byte) :
    BusPerforms s a v (.romRd a) (.unmappedWr a v) := by
  rcases h with ⟨hlo, hhi⟩ | hlo
  · exact busPerforms_of_row hs 0xF00000 0xFBFFFF .cgRom (by decide) hlo hhi v
  · exact busPerforms_of_row hs 0xFE0000 0xFFFFFF .bootRom (by decide) hlo (Nat.le_of_lt_succ a.isLt) v

end

/-- The rows of the external windows are rows of the default map (20_memory R47). -/
def isWindowRow (w : ExtWindow × Nat × Nat) : Bool :=
  decide (⟨w.2.1, w.2.2, windowKind w.1⟩ ∈ (defaultMap 0xC00000).tail)

/-- Settles O46: the bus, the data port and the command run the operation their code table names; and the default map
has a row for each range, whose kind and offset give the port. -/
theorem decodingChain : Obligations.DecodingChain := by
  intro s a v
  refine ⟨?_, ?_, ?_, ?_, exec_sasiExecute s, fun hmap hpos hle => ?_⟩
  · rw [decodePort_portKey]
    exact exec_busRd8_eq_portInstr s a
  · rw [decodePort_portKey]
    exact exec_busWr8_eq_portInstr s a v
  · rw [exec_sasiDataRd_eq_phaseInstr]
    cases s.sasi.phase <;> cases s.sasi.rw <;> rfl
  · rw [exec_sasiDataWr_eq_phaseInstr]
    cases s.sasi.phase <;> cases s.sasi.rw <;> rfl
  · have hs : HasDefaultMap s.cfg := ⟨hmap, hpos, hle⟩
    refine ⟨fun h => busPerforms_ram hs h v, fun h => busPerforms_unmapped hs h v,
      fun hlo hhi => ⟨fun h => busPerforms_rtc_odd hs hlo hhi h v, fun h => busPerforms_rtc_even hs hlo hhi h v⟩,
      fun h => h ▸ busPerforms_sramwe hs v, fun hlo hhi => busPerforms_sasi hs hlo hhi v,
      busPerforms_of_row hs 0xEA0000 0xEA1FFF .scsiRom (by decide) (v := v),
      busPerforms_of_row hs 0xED0000 0xED3FFF .sram (by decide) (v := v),
      fun h => busPerforms_rom hs h v, fun x lo hi hx hlo hhi hkey => ?_⟩
    have hrow : isWindowRow (x, lo, hi) = true := (List.all_eq_true (p := isWindowRow)).1 (by decide) _ hx
    have hport (rw : Bool) : portDecode s.cfg.map rw a = extOp x rw := by
      rw [hmap]
      exact portDecode_extWindow hpos hle (of_decide_eq_true hrow) hlo hhi hkey rw
    exact ⟨hport false, hport true, busPerforms_of_portDecode hport v⟩

end Sys2Proof.Machine
end

section
/-! A wider bus access as its byte accesses (40_bus R92 to R95), and O47. -/

namespace Sys2Proof.Machine

/-! ### The bytes of a big-endian composition (20_memory R44) -/

@[simp] theorem hiByte_append (h l : Byte) : hiByte (h ++ l) = h := BitVec.extractLsb'_append_eq_left

@[simp] theorem loByte_append (h l : Byte) : loByte (h ++ l) = l := BitVec.extractLsb'_append_eq_right

@[simp] theorem wordByte_append_zero (b0 b1 b2 b3 : Byte) : wordByte (b0 ++ b1 ++ b2 ++ b3) 0 = b0 :=
  calc (b0 ++ b1 ++ b2 ++ b3).extractLsb' 24 8
    _ = (b0 ++ b1 ++ b2).extractLsb' 16 8 := extractLsb'_append_skip _ _ 16 8
    _ = (b0 ++ b1).extractLsb' 8 8 := extractLsb'_append_skip _ _ 8 8
    _ = b0 := BitVec.extractLsb'_append_eq_left

@[simp] theorem wordByte_append_one (b0 b1 b2 b3 : Byte) : wordByte (b0 ++ b1 ++ b2 ++ b3) 1 = b1 :=
  calc (b0 ++ b1 ++ b2 ++ b3).extractLsb' 16 8
    _ = (b0 ++ b1 ++ b2).extractLsb' 8 8 := extractLsb'_append_skip _ _ 8 8
    _ = b1 := extractLsb'_append_middle _ _ _

@[simp] theorem wordByte_append_two (b0 b1 b2 b3 : Byte) : wordByte (b0 ++ b1 ++ b2 ++ b3) 2 = b2 :=
  extractLsb'_append_middle _ _ _

@[simp] theorem wordByte_append_three (b0 b1 b2 b3 : Byte) : wordByte (b0 ++ b1 ++ b2 ++ b3) 3 = b3 :=
  BitVec.extractLsb'_append_eq_right

/-! ### A byte access after another operation's result -/

/-- A byte read does not see what the operation before it returned. -/
theorem exec_busRd8_returning {s : State} (h : s.alive = true) (r : Result) (a : Addr) :
    exec (.busRd8 a) (s.returning r) = .next ((s.busRd8 a).2.returning (.byte (s.busRd8 a).1)) := by
  rw [exec_busRd8 (s := s.returning r) h, State.busRd8_returning]
  rfl

/-- A byte write does not see what the operation before it returned. -/
theorem exec_busWr8_returning {s : State} (h : s.alive = true) (r : Result) (a : Addr) (v : Byte) :
    exec (.busWr8 a v) (s.returning r) = .next ((s.busWr8 a v).returning .none) := by
  rw [exec_busWr8 (s := s.returning r) h, State.busWr8_returning]
  rfl

theorem State.busRd8_alive {s : State} (h : s.alive = true) (a : Addr) : (s.busRd8 a).2.alive = true :=
  (Keeps.busRd8 s a).alive.trans h

theorem State.busWr8_alive {s : State} (h : s.alive = true) (a : Addr) (v : Byte) : (s.busWr8 a v).alive = true :=
  (Keeps.busWr8 s a v).alive.trans h

/-! ### Wider writes, byte by byte -/

theorem State.busWr16_append (s : State) (a : Addr) (h l : Byte) :
    s.busWr16 a (h ++ l) = (s.busWr8 a h).busWr8 (a + 1) l := by
  rw [State.busWr16, hiByte_append, loByte_append]

theorem State.busWr32_append (s : State) (a : Addr) (b0 b1 b2 b3 : Byte) :
    s.busWr32 a (b0 ++ b1 ++ b2 ++ b3) =
      (((s.busWr8 a b0).busWr8 (a + 1) b1).busWr8 (a + 2) b2).busWr8 (a + 3) b3 := by
  rw [State.busWr32, wordByte_append_zero, wordByte_append_one, wordByte_append_two, wordByte_append_three]

/-- Settles O47: a composed access is defined as the chain of its byte accesses; each of them leaves the context alive,
and the next does not see what it returned. -/
theorem busWideIsBytes : Obligations.BusWideIsBytes := by
  intro s a halive
  refine ⟨?_, ?_, fun h l => ?_, fun b0 b1 b2 b3 => ?_⟩
  · have halive1 := State.busRd8_alive halive a
    exact ⟨_, _, _, _, exec_busRd8 halive a, rfl, exec_busRd8_returning halive1 _ _, rfl, exec_busRd16 halive a⟩
  · have halive1 := State.busRd8_alive halive a
    have halive2 := State.busRd8_alive halive1 (a + 1)
    have halive3 := State.busRd8_alive halive2 (a + 2)
    exact ⟨_, _, _, _, _, _, _, _, exec_busRd8 halive a, rfl, exec_busRd8_returning halive1 _ _, rfl,
      exec_busRd8_returning halive2 _ _, rfl, exec_busRd8_returning halive3 _ _, rfl, exec_busRd32 halive a⟩
  · have halive1 := State.busWr8_alive halive a h
    refine ⟨_, exec_busWr8 halive a h, ?_⟩
    rw [exec_busWr16 halive, State.busWr16_append, exec_busWr8_returning halive1]
  · have halive1 := State.busWr8_alive halive a b0
    have halive2 := State.busWr8_alive halive1 (a + 1) b1
    have halive3 := State.busWr8_alive halive2 (a + 2) b2
    refine ⟨_, _, _, exec_busWr8 halive a b0, exec_busWr8_returning halive1 _ _ _,
      exec_busWr8_returning halive2 _ _ _, ?_⟩
    rw [exec_busWr32 halive, State.busWr32_append, exec_busWr8_returning halive3]

end Sys2Proof.Machine
end

section
/-! What the events of the external devices change and which device may inject which (10_state R33, 40_bus R99), and
O51. -/

namespace Sys2Proof.Machine

/-! ### Which events a window's device may inject (20_memory R47, log 14) -/

/-- An address in an external window has the window's device. -/
theorem deviceAllows_of_portDecode {c : Cfg} {rw : Bool} {a : Addr} {x : ExtWindow}
    (h : portDecode c.map rw a = .extRd x ∨ portDecode c.map rw a = .extWr x) (e : ExtEvent) :
    deviceAllows c rw a e = windowAllows c x rw e := by
  unfold deviceAllows
  rcases h with h | h <;> rw [h]

/-- When a window's device may inject an event, event by event: the two external sources (42_interrupt R130), the fast
clear (41_scheduler R127), whole sectors (45_peripheral R204, R205), and the start of a channel (43_dma R140). -/
def InjectableAt (c : Cfg) (x : ExtWindow) (rw : Bool) : ExtEvent → Prop
  | .irqRequest src => x = .mfp ∧ src = .mfpTimer ∨ x = .fdc ∧ src = .fdc
  | .fastclrRequest => x = .crtcVc
  | .fddReadSector _ _ => x = .fdc
  | .fddWriteSector _ _ bs => x = .fdc ∧ bs.length = c.fddSectorSize
  | .dmaStart _ _ _ _ _ _ => x = .dmacRegs ∧ rw = true

theorem windowAllows_iff (c : Cfg) (x : ExtWindow) (rw : Bool) (e : ExtEvent) :
    windowAllows c x rw e = true ↔ InjectableAt c x rw e := by
  cases e with
  | irqRequest src =>
    cases x with
    | mfp | fdc => cases src <;> simp [windowAllows, InjectableAt]
    | _ => simp [windowAllows, InjectableAt]
  | fastclrRequest | fddReadSector | dmaStart => cases x <;> simp [windowAllows, InjectableAt]
  | fddWriteSector => cases x <;> simp [windowAllows, InjectableAt, sectorSized]

/-- Where an event is let through there is a device that may inject it. -/
theorem injectableAt_of_deviceAllows {c : Cfg} {rw : Bool} {a : Addr} {e : ExtEvent}
    (h : deviceAllows c rw a e = true) : ∃ x, InjectableAt c x rw e := by
  unfold deviceAllows at h
  split at h
  · exact ⟨_, (windowAllows_iff _ _ _ _).1 h⟩
  · exact ⟨_, (windowAllows_iff _ _ _ _).1 h⟩
  · cases h

/-! ### What an event changes -/

/-- The request an event makes, if any, is for one of the two sources of the external devices (30_encoding R71). -/
def RequestsExternal (e : ExtEvent) : Prop := ∀ src, e = .irqRequest src → src = .mfpTimer ∨ src = .fdc

theorem requestsExternal_of_deviceAllows {c : Cfg} {rw : Bool} {a : Addr} {e : ExtEvent}
    (h : deviceAllows c rw a e = true) : RequestsExternal e := by
  rintro src rfl
  obtain ⟨_, ⟨_, hsrc⟩ | ⟨_, hsrc⟩⟩ := injectableAt_of_deviceAllows h
  · exact .inl hsrc
  · exact .inr hsrc

/-- 40_bus R99: a read starts no DMA channel. -/
theorem ne_dmaStart_of_deviceAllows_read {c : Cfg} {a : Addr} {e : ExtEvent} (h : deviceAllows c false a e = true)
    (ch ss ds : BitVec 2) (p q : Addr) (n : BitVec 16) : e ≠ .dmaStart ch p q n ss ds := by
  rintro rfl
  obtain ⟨_, _, hwrite⟩ := injectableAt_of_deviceAllows h
  cases hwrite

/-- All that draws, outgoing calls and the events of external devices change. -/
structure EventFrame (s t : State) : Prop where
  frame : t = { s with
    pend := t.pend, sched := { s.sched with fastclrPending := t.sched.fastclrPending }, dma := t.dma, fdd := t.fdd
    store := t.store, inputs := t.inputs, calls := t.calls, result := t.result }
  pend : ∀ src, src ≠ .mfpTimer → src ≠ .fdc → pending t.pend src = pending s.pend src

namespace EventFrame

/-- A change of the fields other than `pend`. -/
theorem of_pend_eq {s t : State} (hpend : t.pend = s.pend) (hframe : t = { s with
    pend := t.pend, sched := { s.sched with fastclrPending := t.sched.fastclrPending }, dma := t.dma, fdd := t.fdd
    store := t.store, inputs := t.inputs, calls := t.calls, result := t.result }) : EventFrame s t :=
  ⟨hframe, fun src _ _ => by rw [hpend]⟩

theorem refl (s : State) : EventFrame s s := of_pend_eq rfl rfl

theorem trans {s t u : State} (h : EventFrame s t) (k : EventFrame t u) : EventFrame s u :=
  ⟨k.frame.trans (by rw [h.frame]), fun src hmfp hfdc => (k.pend src hmfp hfdc).trans (h.pend src hmfp hfdc)⟩

theorem call (s : State) (c : Call) : EventFrame s (s.call c) := of_pend_eq rfl rfl

theorem drew (s : State) (i : Inputs) : EventFrame s (s.drew i) := of_pend_eq rfl rfl

theorem returning (s : State) (r : Result) : EventFrame s (s.returning r) := of_pend_eq rfl rfl

theorem requestSrc (s : State) {src : Src} (h : src = .mfpTimer ∨ src = .fdc) : EventFrame s (s.requestSrc src) := by
  refine ⟨rfl, fun o hmfp hfdc => ?_⟩
  have hne : o ≠ src := by rcases h with rfl | rfl <;> assumption
  simp [pending_setPending, hne]

theorem fddReadSector (s : State) (d lba : Nat) : EventFrame s (s.fddReadSector d lba).2 := by
  unfold State.fddReadSector
  split
  · exact refl s
  · exact of_pend_eq rfl rfl

theorem imgWrite (s : State) (h : Option Handle) (off : Nat) (bs : List Byte) :
    EventFrame s (s.imgWrite h off bs).2 := by
  rcases s.imgWrite_spec h off bs with ⟨_, heq⟩ | ⟨_, _, _, _, _, _, heq⟩ <;> rw [heq]
  · exact refl s
  · exact of_pend_eq rfl rfl

theorem fddWriteSector (s : State) (d lba : Nat) (bs : List Byte) : EventFrame s (s.fddWriteSector d lba bs).2 := by
  unfold State.fddWriteSector
  split
  · exact refl s
  · exact imgWrite _ _ _ _

theorem dmaStart (s : State) (c : BitVec 2) (p q : Addr) (n : BitVec 16) (ss ds : BitVec 2) :
    EventFrame s (s.dmaStart c p q n ss ds) := by
  unfold State.dmaStart State.startChannel
  split
  · split
    · exact refl s
    · exact of_pend_eq rfl rfl
  · exact refl s

theorem applyEvent (s : State) {e : ExtEvent} (he : RequestsExternal e) : EventFrame s (s.applyEvent e) := by
  cases e with
  | irqRequest src => exact requestSrc s (he src rfl)
  | fastclrRequest => exact of_pend_eq rfl rfl
  | fddReadSector d lba => exact (fddReadSector s d lba).trans (call _ _)
  | fddWriteSector d lba bs => exact (fddWriteSector s d lba bs).trans (call _ _)
  | dmaStart c p q n ss ds => exact dmaStart s c p q n ss ds

theorem applyEvents {l : List ExtEvent} (h : ∀ e ∈ l, RequestsExternal e) (s : State) :
    EventFrame s (l.foldl State.applyEvent s) := by
  induction l generalizing s with
  | nil => exact refl s
  | cons e l ih =>
    obtain ⟨he, hl⟩ := List.forall_mem_cons.1 h
    exact (applyEvent s he).trans (ih hl _)

theorem drawEvents {allows : ExtEvent → Bool} (h : ∀ e, allows e = true → RequestsExternal e) (s : State) :
    EventFrame s (s.drawEvents allows) :=
  (drew s _).trans (applyEvents (fun _ he => h _ (List.of_mem_filter he)) _)

theorem extRead (s : State) (a : Addr) : EventFrame s (s.extRead a).2 :=
  ((call s _).trans (drawEvents (fun _ => requestsExternal_of_deviceAllows) _)).trans (drew _ _)

theorem extWrite (s : State) (a : Addr) (v : Byte) : EventFrame s (s.extWrite a v) :=
  (call s _).trans (drawEvents (fun _ => requestsExternal_of_deviceAllows) _)

end EventFrame

/-- Every event but the start of a channel leaves the channels as they are. -/
theorem State.applyEvent_dma (s : State) {e : ExtEvent} (h : ∀ c p q n ss ds, e ≠ .dmaStart c p q n ss ds) :
    (s.applyEvent e).dma = s.dma := by
  cases e with
  | irqRequest | fastclrRequest => rfl
  | fddReadSector d lba =>
    simp only [State.applyEvent, State.fddReadSector, State.call_dma]
    split <;> rfl
  | fddWriteSector d lba bs =>
    simp only [State.applyEvent, State.fddWriteSector, State.call_dma]
    split
    · rfl
    · rcases s.imgWrite_spec (some _) _ bs with ⟨_, heq⟩ | ⟨_, _, _, _, _, _, heq⟩ <;> rw [heq]
  | dmaStart c p q n ss ds => exact absurd rfl (h c p q n ss ds)

theorem State.applyEvents_dma {l : List ExtEvent} (h : ∀ e ∈ l, ∀ c p q n ss ds, e ≠ .dmaStart c p q n ss ds)
    (s : State) : (l.foldl State.applyEvent s).dma = s.dma := by
  induction l generalizing s with
  | nil => rfl
  | cons e l ih =>
    obtain ⟨he, hl⟩ := List.forall_mem_cons.1 h
    exact (ih hl _).trans (s.applyEvent_dma he)

/-- 40_bus R99: the DMA channels are as they were after a read. -/
theorem State.extRead_dma (s : State) (a : Addr) : (s.extRead a).2.dma = s.dma :=
  State.applyEvents_dma (fun _ he ch p q n ss ds =>
    ne_dmaStart_of_deviceAllows_read (List.of_mem_filter he) ch ss ds p q n) _

/-- The transaction goes out first; what its events send out comes after it. -/
theorem State.extRead_calls (s : State) (a : Addr) :
    ∃ later, (s.extRead a).2.calls = later ++ .extRead a :: s.calls := by
  obtain ⟨later, hcalls, _⟩ := CallsGrow.drawEvents (s.call (.extRead a)) (deviceAllows s.cfg false a)
  exact ⟨later, hcalls⟩

theorem State.extWrite_calls (s : State) (a : Addr) (v : Byte) :
    ∃ later, (s.extWrite a v).calls = later ++ .extWrite a v :: s.calls := by
  obtain ⟨later, hcalls, _⟩ := CallsGrow.drawEvents (s.call (.extWrite a v)) (deviceAllows s.cfg true a)
  exact ⟨later, hcalls⟩

/-! ### An event is the operation it names -/

/-- 30_encoding R81: the id of a source names it. -/
theorem Src.ofId_id (src : Src) : Src.ofId (BitVec.ofNat 4 src.id.val) = some src := by
  cases src <;> rfl

theorem State.requestId_id (s : State) (src : Src) :
    s.requestId (BitVec.ofNat 4 src.id.val) = s.applyEvent (.irqRequest src) := by
  rw [State.requestId, Src.ofId_id]
  rfl

section
variable {s : State} (h : s.alive = true)
include h

theorem exec_extRd (a : Addr) : exec (.extRd a) s = .next ((s.extRead a).2.returning (.byte (s.extRead a).1)) :=
  inContext_completes h _ _

theorem exec_extWr (a : Addr) (v : Byte) : exec (.extWr a v) s = .next ((s.extWrite a v).returning .none) :=
  inContext_completes h _ _

theorem exec_irqRequest_id (src : Src) :
    exec (.irqRequest (BitVec.ofNat 4 src.id.val)) s = .next ((s.applyEvent (.irqRequest src)).returning .none) := by
  rw [← State.requestId_id]
  exact inContext_completes h _ _

theorem exec_fddReadSector (d lba : Nat) :
    exec (.fddReadSector d lba) s =
      .next ((s.fddReadSector d lba).2.returning (.bytes (s.fddReadSector d lba).1)) := inContext_completes h _ _

theorem exec_fddWriteSector (d lba : Nat) (bs : List Byte) :
    exec (.fddWriteSector d lba bs) s =
      .next ((s.fddWriteSector d lba bs).2.returning (.succeeded (s.fddWriteSector d lba bs).1)) :=
  inContext_completes h _ _

end

/-- A state whose result is known, with the answer to the floppy controller sent out instead of returned. -/
theorem State.call_eq_of_result {s : State} {r : Result} (h : s.result = r) (c : Call) (r' : Result) :
    s.call c = { s.returning r' with calls := c :: s.calls, result := r } := by
  subst h
  rfl

/-- Settles O51: what a transaction's events change is a frame each event keeps; which of them are let through is read
off the table of the windows; and each is the operation it names. -/
theorem extWindowsTouchOnlyEvents : Obligations.ExtWindowsTouchOnlyEvents := by
  intro s a v halive
  refine ⟨?_, ?_, fun rw x src d lba bs c ss ds p q n hport => ?_, fun src d lba bs c ss ds p q n => ?_⟩
  · obtain ⟨later, hcalls⟩ := s.extRead_calls a
    have hframe := (EventFrame.extRead s a).trans (.returning _ (.byte (s.extRead a).1))
    refine ⟨s.extForwardRead a, _, later, rfl, exec_extRd halive a, rfl, hframe.frame.trans ?_,
      (Keeps.extRead s a).drives, hframe.pend⟩
    rw [State.returning_dma, State.extRead_dma, State.returning_calls, hcalls]
  · obtain ⟨later, hcalls⟩ := s.extWrite_calls a v
    have hframe := (EventFrame.extWrite s a v).trans (.returning _ .none)
    refine ⟨s.extWrite a v, _, later, rfl, exec_extWr halive a v, rfl, hframe.frame.trans ?_,
      (Keeps.extWrite s a v).drives, hframe.pend⟩
    rw [State.returning_calls, hcalls, State.returning_result]
  · have hevent (e : ExtEvent) : deviceAllows s.cfg rw a e = true ↔ InjectableAt s.cfg x rw e := by
      rw [deviceAllows_of_portDecode hport, windowAllows_iff]
    exact ⟨hevent _, hevent _, hevent _, hevent _, hevent _⟩
  · exact ⟨exec_irqRequest_id halive src, inContext_completes halive _ _,
      ⟨_, _, exec_fddReadSector halive d lba, rfl,
        State.call_eq_of_result (Keeps.fddReadSector s d lba).result _ _⟩,
      ⟨_, _, exec_fddWriteSector halive d lba bs, rfl,
        State.call_eq_of_result (Keeps.fddWriteSector s d lba bs).result _ _⟩,
      inContext_completes halive _ _⟩

end Sys2Proof.Machine
end

section
/-! The region of an address of the default map, for any RAM it admits, and what the port operations of the memory
regions answer there (20_memory R47 to R49, 40_bus R96 to R98); O48 and O50. -/

namespace Sys2Proof.Machine

/-! ### The region of an address -/

section
variable {map : List Region} {a : Addr} {r : Region} (h : regionAt map a = some r)
include h

theorem kindAt_of_regionAt : kindAt map a = r.kind := by simp [kindAt, h]

theorem offsetAt_of_regionAt : offsetAt map a = a.toNat - r.lo := by simp [offsetAt, h]

theorem portDecode_of_regionAt (rw : Bool) : portDecode map rw a = portOf r.kind rw (a.toNat - r.lo) a := by
  rw [portDecode, kindAt_of_regionAt h, offsetAt_of_regionAt h]

end

/-- 20_memory R47: the first row of the default map is the fitted RAM. -/
theorem regionAt_defaultMap_ram {n : Nat} {a : Addr} (h : a.toNat < n) :
    regionAt (defaultMap n) a = some ⟨0, n - 1, .ram⟩ :=
  List.find?_cons_of_pos (decide_eq_true ⟨Nat.zero_le _, Nat.le_sub_one_of_lt h⟩)

/-- Rows that end below an address do not hold it. -/
theorem regionAt_append_of_lt {below above : List Region} {a : Addr} (h : ∀ q ∈ below, q.hi < a.toNat) :
    regionAt (below ++ above) a = regionAt above a := by
  have hnone : regionAt below a = none :=
    List.find?_eq_none.2 fun q hq hin => absurd (of_decide_eq_true hin).2 (Nat.not_le.2 (h q hq))
  unfold regionAt at hnone ⊢
  rw [List.find?_append, hnone, Option.none_or]

/-- The rows of the default map in RAM's range, those of the fitted RAM and of what is missing above it. -/
def ramRows (n : Nat) : List Region :=
  ⟨0, n - 1, .ram⟩ :: if n < 0xC00000 then [⟨n, 0xBFFFFF, .unmapped⟩] else []

theorem defaultMap_eq_append (n : Nat) : defaultMap n = ramRows n ++ (defaultMap 0xC00000).tail := rfl

theorem hi_lt_of_mem_ramRows {n : Nat} (hle : n ≤ 0xC00000) {q : Region} (hq : q ∈ ramRows n) : q.hi < 0xC00000 := by
  rcases List.mem_cons.1 hq with rfl | hq
  · dsimp only
    omega
  · split at hq
    · rw [List.mem_singleton.1 hq]
      exact (show 0xBFFFFF < 0xC00000 by decide)
    · cases hq

/-- 20_memory R47: the rows above RAM's range hold their addresses whatever RAM is fitted, none included. -/
theorem regionAt_defaultMap_above {n : Nat} (hle : n ≤ 0xC00000) {r : Region} (hr : r ∈ (defaultMap 0xC00000).tail)
    {a : Addr} (hlo : r.lo ≤ a.toNat) (hhi : a.toNat ≤ r.hi) : regionAt (defaultMap n) a = some r := by
  have hcovers : mapCovers 0xC00000 (defaultMap 0xC00000).tail = true := by decide
  have habove : 0xC00000 ≤ a.toNat := (le_lo_of_mapCovers hcovers hr).trans hlo
  rw [defaultMap_eq_append, regionAt_append_of_lt fun q hq => (hi_lt_of_mem_ramRows hle hq).trans_le habove]
  exact regionAt_of_mapCovers hcovers hr hlo hhi

/-! ### RAM -/

section
variable {s : State} {a : Addr} (h : a.toNat < s.cfg.ramSize)
include h

theorem State.ramRead_of_lt : s.ramRead a = Memory.read s.ram a.toNat := if_pos h

theorem State.ramWrite_of_lt (v : Byte) : s.ramWrite a v = { s with ram := Memory.write s.ram a.toNat v } := if_pos h

theorem exec_ramRd (halive : s.alive = true) :
    exec (.ramRd a) s = .next (s.returning (.byte (Memory.read s.ram a.toNat))) := by
  rw [← State.ramRead_of_lt h]
  exact inContext_completes halive _ _

/-- The bus at an address of the fitted RAM, under the default map over a RAM of any size. -/
theorem busPerforms_ram_of_lt (hmap : s.cfg.map = defaultMap s.cfg.ramSize) (v : Byte) :
    BusPerforms s a v (.ramRd a) (.ramWr a v) :=
  busPerforms_of_portDecode (op := fun rw => if rw then .ramWr else .ramRd)
    (by rw [hmap]; exact portDecode_of_regionAt (regionAt_defaultMap_ram h)) v

theorem exec_busRd8_ram (halive : s.alive = true) (hmap : s.cfg.map = defaultMap s.cfg.ramSize) :
    exec (.busRd8 a) s = .next (s.returning (.byte (Memory.read s.ram a.toNat))) :=
  (busPerforms_ram_of_lt h hmap 0).1.trans (exec_ramRd h halive)

end

/-- The state a RAM write leaves (40_bus R96). -/
def State.ramWritten (s : State) (a : Addr) (v : Byte) : State :=
  { s with ram := Memory.write s.ram a.toNat v, result := .none }

theorem exec_ramWr {s : State} {a : Addr} (h : a.toNat < s.cfg.ramSize) (halive : s.alive = true) (v : Byte) :
    exec (.ramWr a v) s = .next (s.ramWritten a v) := by
  have hwrite : (s.ramWrite a v).returning .none = s.ramWritten a v := by rw [State.ramWrite_of_lt h]; rfl
  rw [← hwrite]
  exact inContext_completes halive _ _

/-- 20_memory R48: every byte of RAM after a write. -/
theorem State.read_ramWritten {s : State} (hwf : Memory.wf s.cfg.ramSize s.ram = true) (a : Addr) (v : Byte) (b : Nat) :
    Memory.read (s.ramWritten a v).ram b = if b = a.toNat then v else Memory.read s.ram b :=
  Memory.read_write hwf a.toNat v b

/-- Settles O48: a RAM write stores its byte, which the port and, under the default map, the bus read back. -/
theorem ramStores : Obligations.RamStores := by
  intro s a v halive hwf hlt
  have hwritten := State.read_ramWritten hwf a v
  have hsame : Memory.read (s.ramWritten a v).ram a.toNat = v := by rw [hwritten, if_pos rfl]
  refine ⟨exec_ramRd hlt halive, ⟨s.ramWritten a v, exec_ramWr hlt halive v, rfl, hwritten, ?_⟩, fun hmap =>
    ⟨s.ramWritten a v, ?_, rfl, ?_, fun b hne hb => ?_⟩⟩
  · rw [exec_ramRd (s := s.ramWritten a v) hlt halive, hsame]
    rfl
  · exact (busPerforms_ram_of_lt hlt hmap v).2.trans (exec_ramWr hlt halive v)
  · rw [exec_busRd8_ram (s := s.ramWritten a v) hlt halive hmap, hsame]
    rfl
  · have hother : Memory.read (s.ramWritten a v).ram b.toNat = Memory.read s.ram b.toNat := by
      rw [hwritten, if_neg (mt BitVec.eq_of_toNat_eq hne)]
    rw [exec_busRd8_ram (s := s.ramWritten a v) hb halive hmap, hother]
    rfl

/-! ### The read-only regions -/

/-- 20_memory R49: inside an image a byte is the listed one or the fill byte. -/
theorem Rom.read_of_lt {r : Rom} {off : Nat} (h : off < r.len) (openBus : Byte) :
    Rom.read r openBus off = ((r.cells.find? fun c => c.1 == off).map Prod.snd).getD r.fill := if_pos h

section
variable {s : State} {a : Addr} {r : Region}

/-- 40_bus R97: an address of the boot ROM's region reads its image. -/
theorem State.romRead_bootRom (h : regionAt s.cfg.map a = some r) (hkind : r.kind = .bootRom) {rom : Rom}
    (hrom : s.cfg.bootRom = some rom) : s.romRead a = Rom.read rom s.cfg.openBus (a.toNat - r.lo) := by
  simp only [State.romRead, kindAt_of_regionAt h, hkind, offsetAt_of_regionAt h, hrom, romByte]

/-- 40_bus R97: an address of the character ROM's region reads its image. -/
theorem State.romRead_cgRom (h : regionAt s.cfg.map a = some r) (hkind : r.kind = .cgRom) {rom : Rom}
    (hrom : s.cfg.cgRom = some rom) : s.romRead a = Rom.read rom s.cfg.openBus (a.toNat - r.lo) := by
  simp only [State.romRead, kindAt_of_regionAt h, hkind, offsetAt_of_regionAt h, hrom, romByte]

theorem State.scsiromRead_of_regionAt (h : regionAt s.cfg.map a = some r) :
    s.scsiromRead a = Rom.read s.cfg.scsiRom s.cfg.openBus (a.toNat - r.lo) := by
  rw [State.scsiromRead, offsetAt_of_regionAt h]

end

theorem exec_romRd {s : State} (halive : s.alive = true) (a : Addr) :
    exec (.romRd a) s = .next (s.returning (.byte (s.romRead a))) := inContext_completes halive _ _

theorem exec_scsiromRd {s : State} (halive : s.alive = true) (a : Addr) :
    exec (.scsiromRd a) s = .next (s.returning (.byte (s.scsiromRead a))) := inContext_completes halive _ _

/-- Settles O50: each window is one row of the default map, and the offset in it is inside the image but for the SCSI
ROM's. -/
theorem readOnlyRegions : Obligations.ReadOnlyRegions := by
  intro s a v boot cg halive hmap hle hboot hbootLen hcg hcgLen
  have hrow {r : Region} (hr : r ∈ (defaultMap 0xC00000).tail) (hlo : r.lo ≤ a.toNat) (hhi : a.toNat ≤ r.hi) :
      regionAt s.cfg.map a = some r := by
    rw [hmap]
    exact regionAt_defaultMap_above hle hr hlo hhi
  refine ⟨fun hlo => ?_, fun hlo hhi => ?_, fun hlo hhi => ?_, inContext_completes halive _ _,
    inContext_completes halive _ _⟩
  · have hend : a.toNat ≤ 0xFFFFFF := Nat.le_of_lt_succ a.isLt
    have hregion := hrow (r := ⟨0xFE0000, 0xFFFFFF, .bootRom⟩) (by decide) hlo hend
    rw [exec_romRd halive, State.romRead_bootRom hregion rfl hboot, Rom.read_of_lt (by dsimp only; omega)]
    rfl
  · have hregion := hrow (r := ⟨0xF00000, 0xFBFFFF, .cgRom⟩) (by decide) hlo hhi
    rw [exec_romRd halive, State.romRead_cgRom hregion rfl hcg, Rom.read_of_lt (by dsimp only; omega)]
    rfl
  · have hregion := hrow (r := ⟨0xEA0000, 0xEA1FFF, .scsiRom⟩) (by decide) hlo hhi
    rw [exec_scsiromRd halive, State.scsiromRead_of_regionAt hregion]
    rfl

end Sys2Proof.Machine
end

section
/-! The formulas of the scheduler: the thresholds and the accounting of base cycles, and O22 and O23. -/

namespace Sys2Proof.Machine

/-! ### Thresholds (41_scheduler R103) -/

theorem Clock.threshold_last {k : Clock} (h : 0 < k.nlines.toNat) :
    k.threshold (k.nlines.toNat - 1) = k.budget.toNat := by
  rw [Clock.threshold, Nat.sub_add_cancel h, Nat.mul_div_cancel _ h]

/-- A threshold of a scanline that is there does not pass the budget, so it fits its register (41_scheduler R103). -/
theorem Clock.threshold_le_budget {k : Clock} {line : Nat} (h : line < k.nlines.toNat) :
    k.threshold line ≤ k.budget.toNat :=
  Nat.div_le_of_le_mul (by rw [Nat.mul_comm k.nlines.toNat]; exact Nat.mul_le_mul_left _ h)

theorem Clock.toNat_ofNat_threshold {k : Clock} {line : Nat} (h : line < k.nlines.toNat) :
    (BitVec.ofNat 32 (k.threshold line)).toNat = k.threshold line :=
  Nat.mod_eq_of_lt ((Clock.threshold_le_budget h).trans_lt k.budget.isLt)

/-- One scanline on, the even share is added, and a cycle more where the remainders make a whole one. -/
theorem Clock.threshold_succ {k : Clock} (h : 0 < k.nlines.toNat) (line : Nat) :
    k.threshold (line + 1) = k.threshold line + k.budget.toNat / k.nlines.toNat +
      if k.nlines.toNat ≤ k.budget.toNat * (line + 1) % k.nlines.toNat + k.budget.toNat % k.nlines.toNat then 1
      else 0 := by
  rw [Clock.threshold, Nat.mul_succ, Nat.add_div h, Clock.threshold]

/-- Settles O22: the step from one threshold to the next is that of a quotient of a sum. -/
theorem thresholdsEven : Obligations.ThresholdsEven := fun k hpos =>
  ⟨fun _ => rfl, Clock.threshold_last hpos, fun line => by
    rw [Clock.threshold_succ hpos]
    split
    · exact .inr rfl
    · exact .inl rfl⟩

/-! ### The accounting of base cycles (41_scheduler R112) -/

/-- The residual after a slice is a remainder, which fits its register. -/
theorem State.account_resid (s : State) (consumed : Nat) (hpos : 0 < s.cfg.clockMult) (hlt : s.cfg.clockMult < 2 ^ 32) :
    (s.account consumed).clk.resid.toNat = (s.clk.resid.toNat + consumed * 10) % s.cfg.clockMult :=
  Nat.mod_eq_of_lt ((Nat.mod_lt _ hpos).trans hlt)

theorem State.account_lineused (s : State) (consumed : Nat)
    (h : s.clk.lineused.toNat + (s.clk.resid.toNat + consumed * 10) / s.cfg.clockMult < 2 ^ 32) :
    (s.account consumed).clk.lineused.toNat =
      s.clk.lineused.toNat + (s.clk.resid.toNat + consumed * 10) / s.cfg.clockMult :=
  Nat.mod_eq_of_lt h

/-- Over a run of slices the residual and the base cycles are remainder and quotient of the whole, as if all its
cycles had been consumed at once. -/
theorem State.account_foldl (run : List Nat) (s : State) (hpos : 0 < s.cfg.clockMult) (hlt : s.cfg.clockMult < 2 ^ 32)
    (hresid : s.clk.resid.toNat < s.cfg.clockMult)
    (hfits : s.clk.lineused.toNat + (s.clk.resid.toNat + 10 * run.sum) / s.cfg.clockMult < 2 ^ 32) :
    (run.foldl State.account s).clk.resid.toNat = (s.clk.resid.toNat + 10 * run.sum) % s.cfg.clockMult ∧
    (run.foldl State.account s).clk.lineused.toNat =
      s.clk.lineused.toNat + (s.clk.resid.toNat + 10 * run.sum) / s.cfg.clockMult := by
  induction run generalizing s with
  | nil => simp [Nat.mod_eq_of_lt hresid, Nat.div_eq_of_lt hresid]
  | cons consumed run ih =>
    have hsum : s.clk.resid.toNat + 10 * (consumed :: run).sum =
        (s.clk.resid.toNat + consumed * 10) + 10 * run.sum := by rw [List.sum_cons]; omega
    rw [hsum] at hfits ⊢
    generalize ht : s.clk.resid.toNat + consumed * 10 = t at hfits ⊢
    have hquot : (t + 10 * run.sum) / s.cfg.clockMult =
        t / s.cfg.clockMult + (t % s.cfg.clockMult + 10 * run.sum) / s.cfg.clockMult := by
      conv_lhs => rw [← Nat.div_add_mod t s.cfg.clockMult, Nat.add_assoc, Nat.mul_add_div hpos]
    rw [hquot, ← Nat.add_assoc] at hfits ⊢
    have hres := s.account_resid consumed hpos hlt
    have hused := s.account_lineused consumed (by rw [ht]; exact (Nat.le_add_right _ _).trans_lt hfits)
    rw [ht] at hres hused
    have hrest := ih (s.account consumed) hpos hlt (by rw [hres]; exact Nat.mod_lt _ hpos)
      (by rw [hres, hused]; exact hfits)
    rwa [hres, hused, State.account_cfg, Nat.mod_add_mod] at hrest

/-- Settles O23: the residual is the remainder of the whole, so the whole less the residual divides evenly. -/
theorem residualLosesNothing : Obligations.ResidualLosesNothing := by
  intro run s hpos hlt hresid hfits
  obtain ⟨hr, hl⟩ := State.account_foldl run s hpos hlt hresid hfits
  refine ⟨hr ▸ Nat.mod_lt _ hpos, ?_, hr⟩
  rw [hl, hr, ← Nat.div_eq_sub_mod_div]

end Sys2Proof.Machine
end

section
/-! The start and the end of a frame: what `FRAME_START`, the fast clear, the frame skip and `FRAME_END` make of the
state (41_scheduler R101, R102, R120 to R127), and O15, O19, O20 and O21. -/

namespace Sys2Proof.Machine

/-! ### What a well-formed configuration gives a defined video mode (00_scope R5, 10_state R32) -/

theorem VideoMode.wf_of_videoMode? {c : Cfg} (h : c.wf = true) {mode : BitVec 8} {m : VideoMode}
    (hm : c.videoMode? mode = some m) : m.wf c = true := by
  simp only [Cfg.wf, Cfg.paramsWf, Bool.and_eq_true, List.all_eq_true] at h
  obtain ⟨_, ⟨⟨⟨⟨_, hmodes⟩, _⟩, _⟩, _⟩, _⟩ := h
  exact hmodes m (List.mem_of_find?_eq_some hm)

/-- A frame lets a fast clear last 1 to 3 frames, which its countdown holds. -/
theorem VideoMode.fastclrFrames_bounds {c : Cfg} {m : VideoMode} (h : m.wf c = true) :
    1 ≤ m.fastclrFrames ∧ m.fastclrFrames ≤ 3 := by
  simp only [VideoMode.wf, decide_eq_true_eq] at h
  obtain ⟨_, _, _, _, hpos, hle, _⟩ := h
  exact ⟨hpos, hle⟩

/-- The scalar parameters a frame depends on. -/
theorem Cfg.scalars_of_wf {c : Cfg} (h : c.wf = true) : 1 ≤ c.clockMult ∧ 1 ≤ c.quantum ∧ c.frameskipMax < 2 ^ 8 := by
  simp only [Cfg.wf, Cfg.paramsWf, Bool.and_eq_true, decide_eq_true_eq] at h
  obtain ⟨_, ⟨⟨⟨⟨⟨_, hclock, hquantum, _, _, hskip⟩, _⟩, _⟩, _⟩, _⟩, _⟩ := h
  exact ⟨hclock, hquantum, hskip⟩

/-- 10_state R32: a frame's cycles, a slice and its overrun come to less than 2^31. -/
theorem Cfg.budget_lt_of_noOverflow {c : Cfg} (h : c.noOverflow = true) {mode : BitVec 8} {m : VideoMode}
    (hm : c.videoMode? mode = some m) : c.budget m + c.quantum + c.overrunMax < 2 ^ 31 := by
  simp only [Cfg.noOverflow, List.all_eq_true, decide_eq_true_eq] at h
  exact h m (List.mem_of_find?_eq_some hm)

/-! ### The operations in a context -/

theorem inMode_of_videoMode? {s : State} {mode : BitVec 8} {m : VideoMode} (h : s.cfg.videoMode? mode = some m)
    (k : VideoMode → Host.Outcome State Fault Refusal) : inMode s mode k = k m := by
  rw [inMode, h]

section
variable {s : State} (h : s.alive = true)
include h

theorem exec_frameStart {m : VideoMode} (hm : s.cfg.videoMode? s.nextVideoMode = some m) :
    exec .frameStart s = .next ((s.frameStart s.nextVideoMode m).returning .none) :=
  (if_pos h).trans (inMode_of_videoMode? hm _)

theorem exec_frameEnd {m : VideoMode} (hm : s.cfg.videoMode? s.sched.mode = some m) :
    exec .frameEnd s = .next ((s.frameEnd m).returning .none) :=
  (if_pos h).trans (inMode_of_videoMode? hm _)

theorem exec_frameskipAdapt {m : VideoMode} (hm : s.cfg.videoMode? s.sched.mode = some m) (ms : BitVec 32) :
    exec (.frameskipAdapt ms) s = .next ((s.frameskipAdapt m ms).returning .none) :=
  (if_pos h).trans (inMode_of_videoMode? hm _)

/-- The resolution of a fast clear that is due takes its frames from the mode's row. -/
theorem exec_fastclrResolve_of_mode {m : VideoMode} (hm : s.cfg.videoMode? s.sched.mode = some m) :
    exec .fastclrResolve s = .next ((s.fastclrResolve m).returning .none) := by
  refine (if_pos h).trans ?_
  rw [inMode_of_videoMode? hm, State.fastclrResolve]
  split <;> rfl

/-- Log 13: where no fast clear is due the mode does not matter. -/
theorem exec_fastclrResolve_of_not_due (hdue : s.sched.fastclrDue = false) :
    exec .fastclrResolve s = .next (s.fastclrCounted.returning .none) := by
  refine (if_pos h).trans ?_
  rw [hdue]
  rfl

end

/-! ### The start of a frame -/

/-- 41_scheduler R102: within the bound of 10_state R32 the budget fits its register. -/
theorem Clock.startFrame_budget (k : Clock) {c : Cfg} {m : VideoMode} (h : c.budget m < 2 ^ 32) :
    (k.startFrame c m).budget.toNat = c.budget m := Nat.mod_eq_of_lt h

theorem Clock.startFrame_nlines (k : Clock) (c : Cfg) {m : VideoMode} (h : m.lines < 2 ^ 16) :
    (k.startFrame c m).nlines.toNat = m.lines := Nat.mod_eq_of_lt h

/-- 41_scheduler R101: the first threshold is the even share of the budget. -/
theorem Clock.startFrame_next (k : Clock) (c : Cfg) {m : VideoMode} (hpos : 1 ≤ m.lines) (hlt : m.lines < 2 ^ 16) :
    (k.startFrame c m).next.toNat = (k.startFrame c m).budget.toNat / m.lines := by
  have hnlines := k.startFrame_nlines c hlt
  calc (k.startFrame c m).next.toNat
    _ = (k.startFrame c m).threshold 0 := Clock.toNat_ofNat_threshold (k := k.startFrame c m) (by omega)
    _ = (k.startFrame c m).budget.toNat / m.lines := by rw [Clock.threshold, hnlines, Nat.zero_add, Nat.mul_one]

/-- 41_scheduler R101, R122: a frame counts a skip counter that is not 0 down. -/
theorem Sched.startFrame_eq (r : Sched) (mode : BitVec 8) :
    r.startFrame mode = { r with
      mode := mode, seq := .lineStart, skipq := BitVec.ofNat 8 (r.skipq.toNat - 1)
      render := decide (r.skipq = 0) } := by
  have hskipq : (if r.skipq = 0 then 0 else r.skipq - 1) = BitVec.ofNat 8 (r.skipq.toNat - 1) := by
    split <;> bv_omega
  rw [Sched.startFrame, hskipq]

/-- Settles O15: `FRAME_START` is the start of the clock and of the scheduler's registers, whose numbers fit. -/
theorem frameStartSetsTheFrame : Obligations.FrameStartSetsTheFrame := by
  intro s m halive hwf hover hm
  obtain ⟨hpos, hlines⟩ := lines_bounds_of_videoMode? hwf hm
  have hbudget := Cfg.budget_lt_of_noOverflow hover hm
  exact ⟨_, exec_frameStart halive hm, rfl, s.clk.startFrame_nlines s.cfg hlines, s.clk.startFrame_budget (by omega),
    rfl, rfl, s.clk.startFrame_next s.cfg hpos hlines, rfl, rfl, rfl, s.sched.startFrame_eq _⟩

/-! ### Fast clear -/

/-- A countdown that has begun, or no request: nothing is due. -/
theorem Sched.fastclrDue_eq_false {r : Sched} (h : r.fastclrPending = true → r.fastclrCnt ≠ 0) :
    r.fastclrDue = false := by
  simpa [Sched.fastclrDue] using h

theorem State.fastclrCounted_of_not_pending {s : State} (h : s.sched.fastclrPending = false) :
    s.fastclrCounted = s := by
  rw [State.fastclrCounted, h]
  rfl

theorem State.fastclrCounted_of_pending {s : State} (h : s.sched.fastclrPending = true) :
    s.fastclrCounted = { s with
      sched := { s.sched with fastclrCnt := s.sched.fastclrCnt - 1, fastclrPending := s.sched.fastclrCnt != 1 } } := by
  have hend : (s.sched.fastclrCnt - 1 != 0) = (s.sched.fastclrCnt != 1) := by
    generalize s.sched.fastclrCnt = n
    revert n
    decide
  rw [State.fastclrCounted, if_pos h, hend]

/-- A request with the countdown at 0 is due, and is executed. -/
theorem State.fastclrResolve_of_due {s : State} (h : s.sched.fastclrPending = true) (hcnt : s.sched.fastclrCnt = 0)
    (m : VideoMode) : s.fastclrResolve m = s.fastclrExecuted m := by
  rw [State.fastclrResolve, if_pos (by simp [Sched.fastclrDue, h, hcnt])]

/-- The machine `k` resolutions after the one with which a fast clear of `frames` frames began. -/
def State.fastclrAfter (s : State) (frames k : Nat) : State :=
  { s with
    sched := { s.sched with fastclrPending := decide (k < frames), fastclrCnt := BitVec.ofNat 2 (frames - k) }
    emitted := .fastclrExecute :: s.emitted, result := .none }

theorem State.fastclrExecuted_returning {s : State} {m : VideoMode} (h : s.sched.fastclrPending = true)
    (hpos : 0 < m.fastclrFrames) : (s.fastclrExecuted m).returning .none = s.fastclrAfter m.fastclrFrames 0 := by
  rw [State.fastclrAfter, decide_eq_true hpos, ← h]
  rfl

/-- The run of resolutions that begins with a fast clear that is due. -/
def State.fastclrRun (s : State) (frames : Nat) : Nat → State
  | 0 => s
  | k + 1 => s.fastclrAfter frames k

section
variable {s : State} {frames k : Nat} (hframes : frames ≤ 3)
include hframes

theorem State.fastclrAfter_cnt : (s.fastclrAfter frames k).sched.fastclrCnt.toNat = frames - k :=
  Nat.mod_eq_of_lt (by omega)

/-- Each later resolution takes one off the countdown; the one that takes the last off clears the request. -/
theorem exec_fastclrResolve_fastclrAfter (halive : s.alive = true) (hk : k < frames) :
    exec .fastclrResolve (s.fastclrAfter frames k) = .next (s.fastclrAfter frames (k + 1)) := by
  have hcnt := State.fastclrAfter_cnt (s := s) (k := k) hframes
  have hpending : (s.fastclrAfter frames k).sched.fastclrPending = true := decide_eq_true hk
  have hless : (s.fastclrAfter frames k).sched.fastclrCnt - 1 = BitVec.ofNat 2 (frames - (k + 1)) := by
    bv_omega
  have hend : ((s.fastclrAfter frames k).sched.fastclrCnt != 1) = decide (k + 1 < frames) := by
    rw [Bool.eq_iff_iff, bne_iff_ne, decide_eq_true_iff]
    bv_omega
  rw [exec_fastclrResolve_of_not_due (s := s.fastclrAfter frames k) halive
      (Sched.fastclrDue_eq_false fun _ => by bv_omega), State.fastclrCounted_of_pending hpending, hless, hend]
  rfl

end

/-- Settles O20: a resolution does nothing, counts down or executes; from an execution on the run of them is
`fastclrRun`. -/
theorem fastClearCountsDown : Obligations.FastClearCountsDown := by
  intro s halive
  refine ⟨if_pos halive, fun hpending => ?_, fun hpending hcnt => ?_, fun m hpending hcnt hm => ?_,
    fun m hwf hm hpending hcnt => ?_⟩
  · rw [exec_fastclrResolve_of_not_due halive (Sched.fastclrDue_eq_false (by simp [hpending])),
      State.fastclrCounted_of_not_pending hpending]
    rfl
  · rw [exec_fastclrResolve_of_not_due halive (Sched.fastclrDue_eq_false fun _ => hcnt),
      State.fastclrCounted_of_pending hpending]
    rfl
  · rw [exec_fastclrResolve_of_mode halive hm, State.fastclrResolve_of_due hpending hcnt]
    rfl
  · obtain ⟨hpos, hle⟩ := VideoMode.fastclrFrames_bounds (VideoMode.wf_of_videoMode? hwf hm)
    have hfirst : exec .fastclrResolve s = .next (s.fastclrAfter m.fastclrFrames 0) := by
      rw [exec_fastclrResolve_of_mode halive hm, State.fastclrResolve_of_due hpending hcnt,
        State.fastclrExecuted_returning hpending hpos]
    refine ⟨s.fastclrRun m.fastclrFrames, rfl, fun k hk => ?_, fun k hk hk' => ?_, ?_⟩
    · cases k with
      | zero => exact ⟨hpending, hfirst⟩
      | succ k => exact ⟨decide_eq_true hk, exec_fastclrResolve_fastclrAfter hle halive hk⟩
    · cases k with
      | zero => omega
      | succ k => exact ⟨(State.fastclrAfter_cnt hle).trans (by omega), rfl⟩
    · simp [State.fastclrRun, State.fastclrAfter]

/-! ### Frame skip -/

/-- Settles O21: the counter after a frame that took too long is cut at `FRAMESKIP_MAX`, which fits it. -/
theorem frameskipAdapts : Obligations.FrameskipAdapts := by
  intro s m ms halive hwf hm
  obtain ⟨_, _, hskip⟩ := Cfg.scalars_of_wf hwf
  rw [exec_frameskipAdapt halive hm, frameskipAdapt_eq]
  refine ⟨_, rfl, rfl, fun hlong => ?_, fun hshort => if_neg (by omega)⟩
  dsimp only [State.returning]
  rw [if_pos hlong]
  exact Nat.mod_eq_of_lt ((Nat.min_le_left _ _).trans_lt hskip)

/-! ### The end of a frame -/

theorem Clock.overrun_of_le {k : Clock} (h : k.budget.toNat ≤ k.count.toNat) : k.overrun = k.count - k.budget :=
  if_neg (by omega)

/-- 41_scheduler R120: the end of a frame, field by field. -/
theorem State.frameEnd_eq (s : State) (m : VideoMode) :
    s.frameEnd m = { s.drewElapsedMs with
      clk := { s.clk with carry := s.clk.overrun, line := 0 }
      sched := { s.sched with
        fastclrPending := (s.fastclrResolve m).sched.fastclrPending
        fastclrCnt := (s.fastclrResolve m).sched.fastclrCnt
        skipq := (s.frameskipAdapt m s.nextElapsedMs).sched.skipq, seq := .idle }
      emitted := .frameDone s.sched.render :: (s.fastclrResolve m).emitted
      calls := (s.frameskipAdapt m s.nextElapsedMs).calls } := by
  rw [State.frameEnd, fastclrResolve_eq]
  simp only [frameskipAdapt_eq]
  rfl

/-- Settles O19: `FRAME_END` field by field, its parts those of `FASTCLR_RESOLVE` and `FRAMESKIP_ADAPT`. -/
theorem frameEndCloses : Obligations.FrameEndCloses := by
  intro s m halive hm hbudget
  refine ⟨_, _, exec_fastclrResolve_of_mode halive hm, exec_frameskipAdapt halive hm _, ?_⟩
  rw [exec_frameEnd halive hm, State.frameEnd_eq, Clock.overrun_of_le hbudget]
  rfl

end Sys2Proof.Machine
end

section
/-! The start and the end of a scanline (41_scheduler R104 to R107, R114 to R119), and O16 and O18. -/

namespace Sys2Proof.Machine

/-! ### Conditional requests -/

/-- The pending register after a request made where a condition holds. -/
def setPendingIf (p : BitVec 9) (b : Bool) (src : Src) : BitVec 9 := if b then setPending p src else p

theorem pending_setPendingIf (p : BitVec 9) (b : Bool) (src o : Src) :
    pending (setPendingIf p b src) o = (pending p o || (o == src && b)) := by
  cases b
  · simp [setPendingIf]
  · simp [setPendingIf, pending_setPending]

theorem State.requestIf_eq (s : State) (b : Bool) (src : Src) :
    s.requestIf b src = { s with pend := setPendingIf s.pend b src } := by
  cases b <;> rfl

/-! ### The start of a scanline -/

/-- 41_scheduler R104: the start of a scanline, field by field. -/
theorem State.lineStart_eq (s : State) (m : VideoMode) :
    s.lineStart m = { s.drewRasterLine with
      clk := { s.clk with lineused := 0 }
      sched := { s.sched with seq := if s.clk.count.toNat < s.clk.next.toNat then .slice else .lineEnd }
      pend := setPendingIf (setPendingIf (setPendingIf s.pend (s.clk.line.toNat == m.vdispEnd) .vblankStart)
        (s.clk.line.toNat == m.vdispStart) .vblankEnd) (s.clk.line == s.nextRasterLine) .raster } := by
  simp only [State.lineStart, State.requestIf_eq]
  rfl

theorem exec_lineStart {s : State} (h : s.alive = true) {m : VideoMode} (hm : s.cfg.videoMode? s.sched.mode = some m) :
    exec .lineStart s = .next ((s.lineStart m).returning .none) :=
  (if_pos h).trans (inMode_of_videoMode? hm _)

/-- Settles O16: three requests, each on its condition. -/
theorem lineStartRequests : Obligations.LineStartRequests := by
  intro s m halive hm
  rw [exec_lineStart halive hm, State.lineStart_eq]
  refine ⟨_, rfl, rfl, fun src => ?_⟩
  simp only [State.returning_pend, pending_setPendingIf]

/-! ### The end of a scanline -/

/-- 41_scheduler R116, R117: a poll counter not at its last value wraps where the next value reaches the period. -/
theorem pollCount_eq {cnt : BitVec 16} (h : cnt ≠ 0xFFFF) (period : Nat) :
    pollCount cnt period =
      (if period ≤ cnt.toNat + 1 then 0 else cnt + 1, decide (period ≤ cnt.toNat + 1)) := by
  have hsucc : (cnt + 1).toNat = cnt.toNat + 1 := by bv_omega
  rw [pollCount, hsucc]
  split
  next hle => rw [decide_eq_true hle]
  next hlt => rw [decide_eq_false hlt]

/-- 41_scheduler R119: the clock after a scanline's end, on the next line if there is one. -/
def Clock.endLine (k : Clock) : Clock :=
  if k.line.toNat + 1 < k.nlines.toNat then
    { k with line := k.line + 1, next := BitVec.ofNat 32 (k.threshold (k.line.toNat + 1)) }
  else k

theorem State.nextLine_eq (s : State) :
    s.nextLine = { s with
      clk := s.clk.endLine
      sched := { s.sched with
        seq := if s.clk.line.toNat + 1 < s.clk.nlines.toNat then .lineStart else .frameEnd } } := by
  rw [State.nextLine, Clock.endLine]
  split <;> rfl

/-- 41_scheduler R115: a scanline is handed off where the frame is rendered. -/
theorem State.handOff_eq (s : State) :
    (if s.sched.render then s.emit (.scanline s.clk.line) else s) =
      { s with emitted := if s.sched.render then .scanline s.clk.line :: s.emitted else s.emitted } := by
  split <;> rfl

/-- 41_scheduler R114: the end of a scanline, field by field. -/
theorem State.lineEnd_eq (s : State) :
    s.lineEnd = { s with
      clk := s.clk.endLine
      sched := { s.sched with
        keyCnt := (pollCount s.sched.keyCnt (pollPeriod s.clk.nlines s.cfg.keyDiv)).1
        mouseCnt := (pollCount s.sched.mouseCnt (pollPeriod s.clk.nlines s.cfg.mouseDiv)).1
        seq := if s.clk.line.toNat + 1 < s.clk.nlines.toNat then .lineStart else .frameEnd }
      pend := setPendingIf
        (setPendingIf s.pend (pollCount s.sched.keyCnt (pollPeriod s.clk.nlines s.cfg.keyDiv)).2 .key)
        (pollCount s.sched.mouseCnt (pollPeriod s.clk.nlines s.cfg.mouseDiv)).2 .mouse
      emitted := .audioAdvance s.clk.lineused ::
        (if s.sched.render then .scanline s.clk.line :: s.emitted else s.emitted) } := by
  simp only [State.lineEnd, State.handOff_eq, State.requestIf_eq, State.nextLine_eq]
  rfl

theorem exec_lineEnd {s : State} (h : s.alive = true) : exec .lineEnd s = .next (s.lineEnd.returning .none) :=
  if_pos h

/-- Settles O18: the two counters poll on their periods; the rest is the hand-off and the next line. -/
theorem lineEndActions : Obligations.LineEndActions := by
  intro s halive hkey hmouse
  rw [exec_lineEnd halive, State.lineEnd_eq, pollCount_eq hkey, pollCount_eq hmouse]
  exact ⟨_, rfl, rfl, fun src =>
    (pending_setPendingIf _ _ _ _).trans (congrArg (· || _) (pending_setPendingIf _ _ _ _))⟩

end Sys2Proof.Machine
end

section
/-! A tick of the timers and the events it carries (41_scheduler R126, log 14), and O56. -/

namespace Sys2Proof.Machine

/-! ### The tick of the RTC -/

/-- 45_peripheral R212: a tick of the RTC changes its registers and may request its interrupt. -/
theorem State.rtcTick_frame (s : State) (used : Nat) : ∃ r p, s.rtcTick used = { s with rtc := r, pend := p } := by
  unfold State.rtcTick
  dsimp only
  split
  · exact ⟨_, _, rfl⟩
  · exact ⟨_, s.pend, rfl⟩

section
variable {s : State} (h : s.alive = true) (used : BitVec 32)
include h

theorem exec_rtcTick : exec (.rtcTick used) s = .next ((s.rtcTick used.toNat).returning .none) :=
  inContext_completes h _ _

theorem exec_timersTick : exec (.timersTick used) s = .next ((s.timersTick used.toNat).returning .none) :=
  inContext_completes h _ _

end

/-! ### Which events a tick may carry -/

theorem tickAllows_irqRequest_iff (c : Cfg) (src : Src) :
    tickAllows c (.irqRequest src) = true ↔ src = .mfpTimer ∨ src = .fdc := by
  cases src <;> simp [tickAllows]

theorem tickAllows_fddWriteSector_iff (c : Cfg) (d lba : Nat) (bs : List Byte) :
    tickAllows c (.fddWriteSector d lba bs) = true ↔ bs.length = c.fddSectorSize := beq_iff_eq

theorem requestsExternal_of_tickAllows {c : Cfg} {e : ExtEvent} (h : tickAllows c e = true) : RequestsExternal e := by
  rintro src rfl
  exact (tickAllows_irqRequest_iff c src).1 h

theorem ne_dmaStart_of_tickAllows {c : Cfg} {e : ExtEvent} (h : tickAllows c e = true) (ch : BitVec 2) (p q : Addr)
    (n : BitVec 16) (ss ds : BitVec 2) : e ≠ .dmaStart ch p q n ss ds := by
  rintro rfl
  cases h

/-! ### What events send out -/

/-- `t` holds every call `s` made, and before them perhaps newer answers to sector operations. -/
def AnswersSectors (s t : State) : Prop :=
  ∃ later, t.calls = later ++ s.calls ∧ ∀ c ∈ later, (∃ r, c = .sectorRead r) ∨ ∃ ok, c = .sectorWritten ok

namespace AnswersSectors

theorem of_calls_eq {s t : State} (h : t.calls = s.calls) : AnswersSectors s t := ⟨[], h, nofun⟩

theorem trans {s t u : State} (h : AnswersSectors s t) (k : AnswersSectors t u) : AnswersSectors s u := by
  obtain ⟨l, hl, hsector⟩ := h
  obtain ⟨l', hl', hsector'⟩ := k
  exact ⟨l' ++ l, by rw [hl', hl, List.append_assoc], fun c hc =>
    (List.mem_append.1 hc).elim (hsector' c) (hsector c)⟩

theorem call (s : State) {c : Call} (h : (∃ r, c = .sectorRead r) ∨ ∃ ok, c = .sectorWritten ok) :
    AnswersSectors s (s.call c) :=
  ⟨[c], rfl, fun _ hd => by rwa [List.mem_singleton.1 hd]⟩

theorem applyEvent (s : State) (e : ExtEvent) : AnswersSectors s (s.applyEvent e) := by
  cases e with
  | irqRequest | fastclrRequest => exact of_calls_eq rfl
  | fddReadSector d lba =>
    refine trans (of_calls_eq ?_) (call _ (.inl ⟨_, rfl⟩))
    unfold State.fddReadSector
    split <;> rfl
  | fddWriteSector d lba bs =>
    refine trans (of_calls_eq ?_) (call _ (.inr ⟨_, rfl⟩))
    unfold State.fddWriteSector
    split
    · rfl
    · rcases s.imgWrite_spec (some _) _ bs with ⟨_, heq⟩ | ⟨_, _, _, _, _, _, heq⟩ <;> rw [heq]
  | dmaStart c p q n ss ds =>
    refine of_calls_eq ?_
    unfold State.applyEvent State.dmaStart State.startChannel
    dsimp only
    split
    · split <;> rfl
    · rfl

theorem applyEvents (l : List ExtEvent) (s : State) : AnswersSectors s (l.foldl State.applyEvent s) := by
  induction l generalizing s with
  | nil => exact of_calls_eq rfl
  | cons e l ih => exact (applyEvent s e).trans (ih _)

end AnswersSectors

/-! ### The tick -/

/-- Events do not see what the operation before them returned. -/
theorem State.applyEvents_returning (s : State) (r : Result) (l : List ExtEvent) :
    l.foldl State.applyEvent (s.returning r) = (l.foldl State.applyEvent s).returning r := by
  rw [State.returning_eq_withPast, State.foldl_withPast (fun s e => State.applyEvent_withPast s _ e),
    ← State.returning_eq_withPast]

/-- 41_scheduler R126: a tick is the RTC's tick, its own event, and the events drawn that it may carry, in order. -/
theorem State.timersTick_returning_eq (s : State) (used : Nat) (r : Result) :
    (s.timersTick used).returning r = (s.nextExtEvents.filter (tickAllows s.cfg)).foldl State.applyEvent
      { ((s.rtcTick used).returning r).drewExtEvents with emitted := .extTick used :: s.emitted } := by
  obtain ⟨_, _, hrtc⟩ := s.rtcTick_frame used
  rw [State.timersTick, State.drawEvents, ← State.applyEvents_returning, hrtc]
  rfl

/-- All that the events a tick may carry change, `later` being what they send out. -/
structure TickFrame (s t : State) (later : List Call) : Prop where
  frame : t = { s with
    pend := t.pend, sched := { s.sched with fastclrPending := t.sched.fastclrPending }, fdd := t.fdd
    store := t.store, inputs := t.inputs, calls := later ++ s.calls }
  sectors : ∀ c ∈ later, (∃ r, c = .sectorRead r) ∨ ∃ ok, c = .sectorWritten ok
  drives : t.fdd.length = s.fdd.length
  pend : ∀ src, src ≠ .mfpTimer → src ≠ .fdc → pending t.pend src = pending s.pend src

/-- The frame of the events of external devices, less the channels, which no event of a tick starts. -/
theorem exists_tickFrame_applyEvents {l : List ExtEvent} {c : Cfg} (h : ∀ e ∈ l, tickAllows c e = true) (s : State) :
    ∃ later, TickFrame s (l.foldl State.applyEvent s) later := by
  obtain ⟨later, hcalls, hsectors⟩ := AnswersSectors.applyEvents l s
  obtain ⟨hframe, hpend⟩ := EventFrame.applyEvents (fun e he => requestsExternal_of_tickAllows (h e he)) s
  have hkeeps := Keeps.foldl Keeps.applyEvent l s
  rw [State.applyEvents_dma fun e he => ne_dmaStart_of_tickAllows (h e he), hcalls, hkeeps.result] at hframe
  exact ⟨later, hframe, hsectors, hkeeps.drives, hpend⟩

/-- Settles O56: a tick is the RTC's and then the events drawn, of which each keeps what it may not change. -/
theorem timersTickFrame : Obligations.TimersTickFrame := by
  intro s used halive
  refine ⟨?_, fun src d lba bs c ss ds p q n => ⟨tickAllows_irqRequest_iff _ src, rfl, rfl,
    tickAllows_fddWriteSector_iff _ d lba bs, rfl⟩⟩
  have hevents := s.timersTick_returning_eq used.toNat .none
  obtain ⟨later, htick⟩ := exists_tickFrame_applyEvents (c := s.cfg) (l := s.nextExtEvents.filter (tickAllows s.cfg))
    (fun _ he => List.of_mem_filter he)
    { ((s.rtcTick used.toNat).returning .none).drewExtEvents with emitted := .extTick used.toNat :: s.emitted }
  rw [← hevents] at htick
  obtain ⟨hframe, hsectors, hdrives, hpend⟩ := htick
  obtain ⟨r, p, hrtc⟩ := s.rtcTick_frame used.toNat
  refine ⟨_, _, later, exec_rtcTick halive used, exec_timersTick halive used, hevents, ?_, hsectors,
    hdrives.trans (Keeps.rtcTick s _).drives, hpend⟩
  rw [hrtc] at hframe ⊢
  exact hframe

end Sys2Proof.Machine
end

section
/-! A slice: the interrupt, the backend, the accounting, the channels, the timers (41_scheduler R108 to R113), and
O17. -/

namespace Sys2Proof.Machine

/-! ### The operations of a slice in a context -/

section
variable {s : State} (h : s.alive = true)
include h

theorem exec_irqResolve : exec .irqResolve s = .next (s.resolve.2.returning (.vector s.resolve.1)) :=
  inContext_completes h _ _

/-- `DMA.STEP` does not see what the operation before it returned. -/
theorem exec_dmaStep_returning (c : Fin 3) (used : BitVec 32) (r : Result) :
    exec (.dmaStep (BitVec.ofNat 2 c.val) used) (s.returning r) = .next ((s.dmaStep c used.toNat).returning .none) := by
  have hchannel : channelOf (BitVec.ofNat 2 c.val) = some c := by revert c; decide
  refine (if_pos h).trans ?_
  rw [hchannel]
  dsimp only
  rw [State.dmaStep_returning]
  rfl

/-- `TIMERS.TICK` does not see what the operation before it returned. -/
theorem exec_timersTick_returning (used : BitVec 32) (r : Result) :
    exec (.timersTick used) (s.returning r) = .next ((s.timersTick used.toNat).returning .none) := by
  rw [exec_timersTick (s := s.returning r) h, State.timersTick_returning]
  rfl

theorem exec_dmaStart (c ss ds : BitVec 2) (src dst : Addr) (n : BitVec 16) :
    exec (.dmaStart c src dst n ss ds) s = .next ((s.dmaStart c src dst n ss ds).returning .none) :=
  inContext_completes h _ _

/-- 41_scheduler R108: a slice requires that its cycles are still to come. -/
theorem exec_slice (hdue : s.clk.count.toNat < s.clk.next.toNat) : exec .slice s = .next (s.slice.returning .none) :=
  (if_pos h).trans (if_pos hdue)

end

/-! ### The parts of a slice -/

/-- 42_interrupt R132: the resolution point changes the pending bits alone. -/
theorem State.resolve_frame (s : State) : ∃ p, s.resolve.2 = { s with pend := p } := by
  unfold State.resolve
  split
  · exact ⟨s.pend, rfl⟩
  · exact ⟨_, rfl⟩

/-- The cycles a slice consumes (41_scheduler R110). -/
def State.sliceConsumed (s : State) : Nat := consumedOf s.nextBackend.consumed s.sliceRequest s.cfg.overrunMax

/-- The base cycles a slice hands out (41_scheduler R112). -/
def State.sliceUsed (s : State) : Nat := subCycles s.clk s.sliceConsumed / s.cfg.clockMult

/-- The state the CPU backend leaves (41_scheduler R110). -/
def State.backendRan (s : State) : State := (s.resolve.2.execute s.sliceRequest s.resolve.1).2

/-- The state after the accounting and the three channels (41_scheduler R111 to R113). -/
def State.channelsStepped (s : State) : State :=
  (((s.backendRan.account s.sliceConsumed).dmaStep 0 s.sliceUsed).dmaStep 1 s.sliceUsed).dmaStep 2 s.sliceUsed

theorem Keeps.backendRan (s : State) : Keeps s s.backendRan := (Keeps.resolve s).trans (.execute _ _ _)

/-- 41_scheduler R108: a slice is its parts, one after the other. -/
theorem State.slice_eq (s : State) : s.slice = (s.channelsStepped.timersTick s.sliceUsed).sliceOrEnd := by
  obtain ⟨p, hp⟩ := s.resolve_frame
  have hconsumed : (s.resolve.2.execute s.sliceRequest s.resolve.1).1 = s.sliceConsumed := by rw [hp]; rfl
  have hused : subCycles s.backendRan.clk s.sliceConsumed / s.backendRan.cfg.clockMult = s.sliceUsed := by
    rw [(Keeps.backendRan s).clk, (Keeps.backendRan s).cfg]; rfl
  calc s.slice
    _ = s.backendRan.afterBackend (s.resolve.2.execute s.sliceRequest s.resolve.1).1 := rfl
    _ = s.backendRan.afterBackend s.sliceConsumed := by rw [hconsumed]
    _ = (s.channelsStepped.timersTick s.sliceUsed).sliceOrEnd := by
      simp only [State.afterBackend, hused, State.channelsStepped]

/-! ### What a slice keeps -/

theorem Keeps.account_congr {s t : State} (h : Keeps s t) (consumed : Nat) :
    Keeps (s.account consumed) (t.account consumed) :=
  ⟨by rw [State.account, State.account, h.clk, h.cfg], h.sched, h.drives, h.cfg, h.alive, h.queue, h.result, h.emitted⟩

theorem Keeps.emit_congr {s t : State} (h : Keeps s t) (e : OutEvent) : Keeps (s.emit e) (t.emit e) :=
  ⟨h.clk, h.sched, h.drives, h.cfg, h.alive, h.queue, h.result, congrArg (e :: ·) h.emitted⟩

theorem Keeps.channelsStepped (s : State) : Keeps (s.account s.sliceConsumed) s.channelsStepped :=
  ((((Keeps.backendRan s).account_congr _).trans (.dmaStep _ 0 _)).trans (.dmaStep _ 1 _)).trans (.dmaStep _ 2 _)

/-- Of all that `Keeps` names, a slice changes the clock by its accounting and `sched.seq` by the new count, and emits
its tick. -/
theorem State.slice_frame (s : State) :
    ∃ t, s.slice = t.sliceOrEnd ∧ Keeps ((s.account s.sliceConsumed).emit (.extTick s.sliceUsed)) t :=
  ⟨_, s.slice_eq, (((Keeps.channelsStepped s).trans (.rtcTick _ _)).emit_congr _).trans (State.timersTick_frame _ _)⟩

theorem CallsGrow.channelsStepped (s : State) : CallsGrow s.backendRan s.channelsStepped := by
  have haccount : CallsGrow s.backendRan (s.backendRan.account s.sliceConsumed) := .of rfl
  exact ((haccount.trans (.dmaStep _ 0 _)).trans (.dmaStep _ 1 _)).trans (.dmaStep _ 2 _)

/-- The backend is run once, with the interrupt delivered and the cycles asked for; all that goes out later is not a
run of it. -/
theorem State.slice_calls (s : State) : ∃ later,
    s.slice.calls = later ++ .cpuExecute s.sliceRequest s.resolve.1 :: s.calls ∧
      ∀ c ∈ later, ∀ n irq, c ≠ .cpuExecute n irq := by
  obtain ⟨p, hp⟩ := s.resolve_frame
  have hbackend : CallsGrow (s.resolve.2.drewBackend.call (.cpuExecute s.sliceRequest s.resolve.1)) s.backendRan :=
    .foldl .backendOp _ _
  have hrest : CallsGrow s.backendRan s.slice := by
    rw [State.slice_eq]
    exact ((CallsGrow.channelsStepped s).trans (.timersTick _ _)).trans (.of (State.sliceOrEnd_calls _))
  obtain ⟨later, hcalls, hnot⟩ := hbackend.trans hrest
  rw [hp] at hcalls
  exact ⟨later, hcalls, hnot⟩

/-! ### The statement -/

/-- 41_scheduler R110: where a slice is due, the cycles consumed are at most the request and `OVERRUN_MAX`. -/
theorem State.sliceConsumed_bounds {s : State} (hquantum : 1 ≤ s.cfg.quantum)
    (hdue : s.clk.count.toNat < s.clk.next.toNat) :
    1 ≤ s.sliceConsumed ∧ s.sliceConsumed ≤ s.sliceRequest + s.cfg.overrunMax := by
  have hreq : 1 ≤ s.sliceRequest := by unfold State.sliceRequest; omega
  obtain ⟨hpos, hle⟩ := consumedOf_bounds s.nextBackend.consumed s.sliceRequest s.cfg.overrunMax
  exact ⟨hpos, hle.trans (by omega)⟩

/-- The operations of the backend after the delivery of an interrupt do not see what the delivery returned. -/
theorem State.backendRan_returning (s : State) (r : Result) :
    s.nextBackend.ops.foldl State.backendOp
      ((s.resolve.2.returning r).drewBackend.call (.cpuExecute s.sliceRequest s.resolve.1)) =
    s.backendRan.returning r := by
  obtain ⟨p, hp⟩ := s.resolve_frame
  have hops : s.nextBackend = s.resolve.2.nextBackend := by rw [hp]; rfl
  rw [hops]
  exact State.backendOps_returning (s.resolve.2.drewBackend.call (.cpuExecute s.sliceRequest s.resolve.1)) r _

/-- The clock a slice leaves (41_scheduler R111, R112). -/
theorem State.account_clk (s : State) (consumed : Nat) {used : Nat}
    (hused : used = (s.clk.resid.toNat + consumed * 10) / s.cfg.clockMult) :
    (s.account consumed).clk = { s.clk with
      count := BitVec.ofNat 32 (s.clk.count.toNat + consumed)
      resid := BitVec.ofNat 32 ((s.clk.resid.toNat + consumed * 10) % s.cfg.clockMult)
      lineused := BitVec.ofNat 32 (s.clk.lineused.toNat + used) } := by
  rw [hused]
  rfl

/-- The backend leaves the clock alone, so the accounting after it is that of the state before the slice. -/
theorem State.backendRan_account (s : State) (consumed : Nat) :
    s.backendRan.account consumed = { s.backendRan with clk := (s.account consumed).clk } := by
  rw [← ((Keeps.backendRan s).account_congr consumed).clk]
  rfl

/-- An operation of the backend is the operation of the bus or of the channels it names; a read's answer goes back to it
instead of being returned (41_scheduler R110). -/
theorem backendOp_performs {s : State} (h : s.alive = true) (a src dst : Addr) (v : Byte) (w : BitVec 16)
    (l : BitVec 32) (c ss ds : BitVec 2) (n : BitVec 16) :
    (∃ t b, exec (.busRd8 a) s = .next t ∧ t.result = .byte b ∧
      s.backendOp (.rd8 a) = { t with calls := .answer8 b :: t.calls, result := s.result }) ∧
    (∃ t b, exec (.busRd16 a) s = .next t ∧ t.result = .half b ∧
      s.backendOp (.rd16 a) = { t with calls := .answer16 b :: t.calls, result := s.result }) ∧
    (∃ t b, exec (.busRd32 a) s = .next t ∧ t.result = .word b ∧
      s.backendOp (.rd32 a) = { t with calls := .answer32 b :: t.calls, result := s.result }) ∧
    exec (.busWr8 a v) s = .next { s.backendOp (.wr8 a v) with result := .none } ∧
    exec (.busWr16 a w) s = .next { s.backendOp (.wr16 a w) with result := .none } ∧
    exec (.busWr32 a l) s = .next { s.backendOp (.wr32 a l) with result := .none } ∧
    exec (.dmaStart c src dst n ss ds) s =
      .next { s.backendOp (.dmaStart c src dst n ss ds) with result := .none } :=
  ⟨⟨_, _, exec_busRd8 h a, rfl, State.call_eq_of_result (Keeps.busRd8 s a).result _ _⟩,
    ⟨_, _, exec_busRd16 h a, rfl, State.call_eq_of_result (Keeps.busRd16 s a).result _ _⟩,
    ⟨_, _, exec_busRd32 h a, rfl, State.call_eq_of_result (Keeps.busRd32 s a).result _ _⟩,
    exec_busWr8 h a v, exec_busWr16 h a w, exec_busWr32 h a l, exec_dmaStart h c ss ds src dst n⟩

/-- The channels and the timers after a state in a context, operation by operation; none of them sees what the one
before it returned (41_scheduler R113). -/
theorem exec_channels_timers {x : State} (h : x.alive = true) (used : BitVec 32) (r : Result) :
    ∃ w0 w1 w2, exec (.dmaStep 0 used) (x.returning r) = .next w0 ∧ exec (.dmaStep 1 used) w0 = .next w1 ∧
      exec (.dmaStep 2 used) w1 = .next w2 ∧ exec (.timersTick used) w2 = .next
        (((((x.dmaStep 0 used.toNat).dmaStep 1 used.toNat).dmaStep 2 used.toNat).timersTick used.toNat).returning
          .none) := by
  have h0 := (Keeps.dmaStep x 0 used.toNat).alive.trans h
  have h1 := (Keeps.dmaStep (x.dmaStep 0 used.toNat) 1 used.toNat).alive.trans h0
  have h2 := (Keeps.dmaStep ((x.dmaStep 0 used.toNat).dmaStep 1 used.toNat) 2 used.toNat).alive.trans h1
  exact ⟨_, _, _, exec_dmaStep_returning h 0 used r, exec_dmaStep_returning h0 1 used .none,
    exec_dmaStep_returning h1 2 used .none, exec_timersTick_returning h2 used .none⟩

/-- Settles O17: the equations of the operations of a slice, chained; what it keeps is `slice_frame`. Once the parts
are named, the states are generalized: what they are computed from no longer matters. -/
theorem sliceAccounts : Obligations.SliceAccounts := by
  refine ⟨?_, fun s a src dst v w l c ss ds n halive => backendOp_performs halive a src dst v w l c ss ds n⟩
  intro s req consumed used halive hwf hdue hreq hconsumed hused
  obtain rfl : req = s.sliceRequest := hreq
  obtain rfl : consumed = s.sliceConsumed := hconsumed
  obtain ⟨_, hquantum, _⟩ := Cfg.scalars_of_wf hwf
  obtain ⟨hpos, hle⟩ := State.sliceConsumed_bounds hquantum hdue
  have hclk := s.account_clk s.sliceConsumed hused
  replace hused : used.toNat = s.sliceUsed := hused
  obtain ⟨later, hcalls, hlater⟩ := s.slice_calls
  obtain ⟨u, hslice, hkeeps⟩ := s.slice_frame
  have hparts := s.slice_eq
  have hexec := exec_slice halive hdue
  have halive' : (s.backendRan.account s.sliceConsumed).alive = true := (Keeps.backendRan s).alive.trans halive
  obtain ⟨w0, w1, w2, h0, h1, h2, h3⟩ := exec_channels_timers halive' used (.vector s.resolve.1)
  rw [State.channelsStepped, ← hused] at hparts
  rw [s.backendRan_account] at h0
  rw [← hclk]
  generalize State.timersTick _ used.toNat = x at hparts h3
  generalize s.slice = t at *
  refine ⟨s.resolve.1, _, s.backendRan.returning (.vector s.resolve.1), w0, w1, w2, _, t.returning .none, later,
    exec_irqResolve halive, rfl, (s.backendRan_returning _).symm, h0, h1, h2, h3, by rw [hparts]; rfl, hexec, hcalls,
    hlater, hpos, hle, ?_⟩
  subst hslice
  refine ⟨hkeeps.clk, ?_, ?_, hkeeps.cfg, hkeeps.alive, hkeeps.queue, hkeeps.drives, rfl⟩
  · rw [hused]
    exact hkeeps.emitted
  · rw [State.returning_sched, State.sliceOrEnd_sched, hkeeps.sched]
    rfl

end Sys2Proof.Machine
end

section
/-! A frame from `FRAME_START` to IDLE: the clock in each of its micro-steps, the steps left, and O14 (41_scheduler
R100, R120, R123 to R125, 70_reset R290). -/

namespace Sys2Proof.Machine

/-! ### What every micro-step of a frame keeps -/

/-- What no micro-step of a frame changes: the configuration, the context, the queue, the result, the mode and with it
the scanline count and the budget. -/
structure KeepsFrame (s t : State) : Prop where
  cfg : t.cfg = s.cfg
  alive : t.alive = s.alive
  queue : t.queue = s.queue
  result : t.result = s.result
  mode : t.sched.mode = s.sched.mode
  nlines : t.clk.nlines = s.clk.nlines
  budget : t.clk.budget = s.clk.budget

theorem KeepsFrame.refl (s : State) : KeepsFrame s s := ⟨rfl, rfl, rfl, rfl, rfl, rfl, rfl⟩

theorem KeepsFrame.trans {s t u : State} (h : KeepsFrame s t) (k : KeepsFrame t u) : KeepsFrame s u :=
  ⟨k.cfg.trans h.cfg, k.alive.trans h.alive, k.queue.trans h.queue, k.result.trans h.result, k.mode.trans h.mode,
    k.nlines.trans h.nlines, k.budget.trans h.budget⟩

theorem KeepsFrame.of_keeps {s t : State} (h : Keeps s t) : KeepsFrame s t :=
  ⟨h.cfg, h.alive, h.queue, h.result, by rw [h.sched], by rw [h.clk], by rw [h.clk]⟩

theorem Clock.endLine_nlines (k : Clock) : k.endLine.nlines = k.nlines := by
  unfold Clock.endLine
  split <;> rfl

theorem Clock.endLine_budget (k : Clock) : k.endLine.budget = k.budget := by
  unfold Clock.endLine
  split <;> rfl

theorem Clock.endLine_count (k : Clock) : k.endLine.count = k.count := by
  unfold Clock.endLine
  split <;> rfl

theorem KeepsFrame.slice (s : State) : KeepsFrame s s.slice := by
  obtain ⟨t, hslice, hkeeps⟩ := s.slice_frame
  have haccount : KeepsFrame s ((s.account s.sliceConsumed).emit (.extTick s.sliceUsed)) :=
    ⟨rfl, rfl, rfl, rfl, rfl, rfl, rfl⟩
  have hend : KeepsFrame t t.sliceOrEnd := ⟨rfl, rfl, rfl, rfl, rfl, rfl, rfl⟩
  rw [hslice]
  exact (haccount.trans (.of_keeps hkeeps)).trans hend

theorem KeepsFrame.microStep (s : State) (m : VideoMode) : KeepsFrame s (s.microStep m) := by
  unfold State.microStep
  split
  · exact .refl s
  · rw [State.lineStart_eq]
    exact ⟨rfl, rfl, rfl, rfl, rfl, rfl, rfl⟩
  · exact .slice s
  · rw [State.lineEnd_eq]
    exact ⟨rfl, rfl, rfl, rfl, rfl, s.clk.endLine_nlines, s.clk.endLine_budget⟩
  · rw [State.frameEnd_eq]
    exact ⟨rfl, rfl, rfl, rfl, rfl, rfl, rfl⟩

/-! ### The clock during a frame -/

/-- The clock stands on a scanline of the frame, its threshold set (41_scheduler R103). -/
structure Clock.OnLine (k : Clock) : Prop where
  line : k.line.toNat < k.nlines.toNat
  next : k.next.toNat = k.threshold k.line.toNat

/-- What the clock shows when `sched.seq` names a micro-step; at IDLE, after the frame (41_scheduler R104, R108, R119,
R120). -/
def Clock.Meets (k : Clock) : Seq → Prop
  | .idle => k.line = 0 ∧ k.budget.toNat ≤ k.count.toNat ∧ k.carry = k.count - k.budget
  | .lineStart => k.OnLine
  | .slice => k.OnLine ∧ k.count.toNat < k.next.toNat
  | .lineEnd => k.OnLine ∧ k.next.toNat ≤ k.count.toNat
  | .frameEnd => k.budget.toNat ≤ k.count.toNat

/-- A bound of the micro-steps to the frame's end: two for each scanline left, one for each cycle left, and the end
(70_reset R290). -/
def Clock.stepsLeft (k : Clock) : Seq → Nat
  | .idle => 0
  | .lineStart => 2 * (k.nlines.toNat - k.line.toNat) + (k.budget.toNat - k.count.toNat) + 1
  | .slice | .lineEnd => 2 * (k.nlines.toNat - k.line.toNat) + (k.budget.toNat - k.count.toNat)
  | .frameEnd => 1

/-- The count has not run further past the budget than one slice may (41_scheduler R124, R125). -/
def State.WithinOverrun (s : State) : Prop := s.clk.count.toNat ≤ s.clk.budget.toNat + s.cfg.overrunMax

theorem State.withinOverrun_congr {s t : State} (hcfg : t.cfg = s.cfg) (hbudget : t.clk.budget = s.clk.budget)
    (hcount : t.clk.count = s.clk.count) : s.WithinOverrun → t.WithinOverrun := by
  unfold State.WithinOverrun
  rw [hcfg, hbudget, hcount]
  exact id

/-- One micro-step of a frame: the clock meets what the next one asks for, fewer are left, and the count stays within
the overrun. -/
structure AdvancesFrame (s t : State) : Prop where
  clock : t.clk.Meets t.sched.seq
  fewer : t.clk.stepsLeft t.sched.seq < s.clk.stepsLeft s.sched.seq
  overrun : s.WithinOverrun → t.WithinOverrun

theorem Clock.OnLine.next_le_budget {k : Clock} (h : k.OnLine) : k.next.toNat ≤ k.budget.toNat :=
  h.next.trans_le (Clock.threshold_le_budget h.line)

/-- What comes after a scanline's start and after a slice is told by the count. -/
theorem Clock.OnLine.meets {k : Clock} (h : k.OnLine) :
    k.Meets (if k.count.toNat < k.next.toNat then .slice else .lineEnd) := by
  split
  next hlt => exact ⟨h, hlt⟩
  next hge => exact ⟨h, Nat.le_of_not_lt hge⟩

theorem Clock.stepsLeft_sliceOrEnd (k : Clock) :
    k.stepsLeft (if k.count.toNat < k.next.toNat then .slice else .lineEnd) =
      2 * (k.nlines.toNat - k.line.toNat) + (k.budget.toNat - k.count.toNat) := by
  split <;> rfl

/-- 41_scheduler R119: after the last scanline, whose threshold is the budget, the frame's end is due. -/
theorem Clock.OnLine.endLine_meets {k : Clock} (h : k.OnLine) (hpassed : k.next.toNat ≤ k.count.toNat) :
    k.endLine.Meets (if k.line.toNat + 1 < k.nlines.toNat then .lineStart else .frameEnd) := by
  obtain ⟨hline, hnext⟩ := h
  by_cases hmore : k.line.toNat + 1 < k.nlines.toNat
  · have hsucc : (k.line + 1).toNat = k.line.toNat + 1 := by bv_omega
    rw [Clock.endLine, if_pos hmore, if_pos hmore]
    exact ⟨hsucc.trans_lt hmore, (Clock.toNat_ofNat_threshold hmore).trans (by rw [← hsucc]; rfl)⟩
  · have hlast : k.line.toNat = k.nlines.toNat - 1 := by omega
    rw [hlast, Clock.threshold_last (by omega)] at hnext
    rw [Clock.endLine, if_neg hmore, if_neg hmore]
    exact hnext.symm.trans_le hpassed

theorem Clock.OnLine.stepsLeft_endLine_lt {k : Clock} (h : k.OnLine) :
    k.endLine.stepsLeft (if k.line.toNat + 1 < k.nlines.toNat then .lineStart else .frameEnd) <
      k.stepsLeft .lineEnd := by
  have hline := h.line
  by_cases hmore : k.line.toNat + 1 < k.nlines.toNat
  · rw [Clock.endLine, if_pos hmore, if_pos hmore]
    dsimp only [Clock.stepsLeft]
    bv_omega
  · rw [if_neg hmore]
    dsimp only [Clock.stepsLeft]
    omega

section
variable {s : State}

theorem AdvancesFrame.lineStart (hseq : s.sched.seq = .lineStart) (h : s.clk.Meets s.sched.seq) (m : VideoMode) :
    AdvancesFrame s (s.lineStart m) := by
  rw [hseq] at h
  have hline : ({ s.clk with lineused := 0 } : Clock).OnLine := ⟨h.line, h.next⟩
  rw [State.lineStart_eq]
  refine ⟨hline.meets, ?_, State.withinOverrun_congr rfl rfl rfl⟩
  rw [hseq]
  exact (Clock.stepsLeft_sliceOrEnd { s.clk with lineused := 0 }).trans_lt (Nat.lt_succ_self _)

/-- 41_scheduler R108, R110: a slice passes at least one cycle, and no more past its scanline than the overrun. -/
theorem AdvancesFrame.slice (hquantum : 1 ≤ s.cfg.quantum) (hfits : s.clk.budget.toNat + s.cfg.overrunMax < 2 ^ 32)
    (hseq : s.sched.seq = .slice) (h : s.clk.Meets s.sched.seq) : AdvancesFrame s s.slice := by
  rw [hseq] at h
  obtain ⟨hline, hdue⟩ := h
  obtain ⟨hpos, hle⟩ := State.sliceConsumed_bounds hquantum hdue
  have hreq : s.sliceRequest ≤ s.clk.next.toNat - s.clk.count.toNat := Nat.min_le_right _ _
  have hnext := hline.next_le_budget
  have hcount : (s.account s.sliceConsumed).clk.count.toNat = s.clk.count.toNat + s.sliceConsumed :=
    Nat.mod_eq_of_lt (by omega)
  have hline' : (s.account s.sliceConsumed).clk.OnLine := ⟨hline.line, hline.next⟩
  obtain ⟨t, hslice, hkeeps⟩ := s.slice_frame
  have hclk : t.sliceOrEnd.clk = (s.account s.sliceConsumed).clk := hkeeps.clk
  have hseq' : t.sliceOrEnd.sched.seq = if (s.account s.sliceConsumed).clk.count.toNat <
      (s.account s.sliceConsumed).clk.next.toNat then .slice else .lineEnd := by rw [← hclk]; rfl
  have hcfg : t.sliceOrEnd.cfg = s.cfg := hkeeps.cfg
  rw [hslice]
  refine ⟨?_, ?_, fun _ => ?_⟩
  · rw [hclk, hseq']
    exact hline'.meets
  · rw [hclk, hseq', Clock.stepsLeft_sliceOrEnd, hseq, hcount]
    show 2 * (s.clk.nlines.toNat - s.clk.line.toNat) + (s.clk.budget.toNat - (s.clk.count.toNat + s.sliceConsumed)) <
      2 * (s.clk.nlines.toNat - s.clk.line.toNat) + (s.clk.budget.toNat - s.clk.count.toNat)
    omega
  · rw [State.WithinOverrun, hclk, hcfg, hcount]
    show _ ≤ s.clk.budget.toNat + _
    omega

theorem AdvancesFrame.lineEnd (hseq : s.sched.seq = .lineEnd) (h : s.clk.Meets s.sched.seq) :
    AdvancesFrame s s.lineEnd := by
  rw [hseq] at h
  obtain ⟨hline, hpassed⟩ := h
  rw [State.lineEnd_eq]
  exact ⟨hline.endLine_meets hpassed, by rw [hseq]; exact hline.stepsLeft_endLine_lt,
    State.withinOverrun_congr rfl s.clk.endLine_budget s.clk.endLine_count⟩

theorem AdvancesFrame.frameEnd (hseq : s.sched.seq = .frameEnd) (h : s.clk.Meets s.sched.seq) (m : VideoMode) :
    AdvancesFrame s (s.frameEnd m) := by
  rw [hseq] at h
  rw [State.frameEnd_eq]
  exact ⟨⟨rfl, h, Clock.overrun_of_le h⟩, by rw [hseq]; exact Nat.one_pos, State.withinOverrun_congr rfl rfl rfl⟩

theorem AdvancesFrame.microStep (hquantum : 1 ≤ s.cfg.quantum)
    (hfits : s.clk.budget.toNat + s.cfg.overrunMax < 2 ^ 32) (hseq : s.sched.seq ≠ .idle)
    (h : s.clk.Meets s.sched.seq) (m : VideoMode) : AdvancesFrame s (s.microStep m) := by
  unfold State.microStep
  split
  next hidle => exact absurd hidle hseq
  next hq => exact .lineStart hq h m
  next hq => exact .slice hquantum hfits hq h
  next hq => exact .lineEnd hq h
  next hq => exact .frameEnd hq h m

end

/-! ### The loop of `RUN_FRAME` -/

/-- The state a number of micro-steps after another. -/
def State.microSteps (m : VideoMode) (n : Nat) (s : State) : State := (fun x => x.microStep m)^[n] s

theorem State.microSteps_succ (m : VideoMode) (n : Nat) (s : State) :
    State.microSteps m (n + 1) s = (State.microSteps m n s).microStep m :=
  Function.iterate_succ_apply' _ n s

/-- A loop whose micro-steps keep `P` and leave ever fewer to come stops at IDLE, after as many of them as there
are before it. -/
theorem State.frameLoop_of_decreasing {m : VideoMode} {P : State → Prop} {left : State → Nat}
    (hstep : ∀ x, P x → x.sched.seq ≠ .idle → P (x.microStep m) ∧ left (x.microStep m) < left x) :
    ∀ (bound : Nat) (s : State), P s → left s ≤ bound →
      ∃ n, State.frameLoop m bound s = some (State.microSteps m n s) ∧
        (∀ j, j < n → P (State.microSteps m j s) ∧ (State.microSteps m j s).sched.seq ≠ .idle) ∧
        P (State.microSteps m n s) ∧ (State.microSteps m n s).sched.seq = .idle := by
  intro bound
  induction bound with
  | zero =>
    intro s hs hleft
    have hidle : s.sched.seq = .idle := by
      by_contra hne
      have := (hstep s hs hne).2
      omega
    exact ⟨0, if_pos hidle, nofun, hs, hidle⟩
  | succ bound ih =>
    intro s hs hleft
    by_cases hidle : s.sched.seq = .idle
    · exact ⟨0, if_pos hidle, nofun, hs, hidle⟩
    · obtain ⟨hs', hless⟩ := hstep s hs hidle
      obtain ⟨n, hloop, hbefore, hend⟩ := ih (s.microStep m) hs' (by omega)
      refine ⟨n + 1, (if_neg hidle).trans hloop, fun j hj => ?_, hend⟩
      cases j with
      | zero => exact ⟨hs, hidle⟩
      | succ j => exact hbefore j (by omega)

/-- A frame does not see what the operation before it returned. -/
theorem State.frameLoop_returning (m : VideoMode) (n : Nat) (s : State) (r : Result) :
    State.frameLoop m n (s.returning r) = (State.frameLoop m n s).map (·.returning r) := by
  rw [State.returning_eq_withPast, State.frameLoop_withPast]
  exact congrArg (Option.map · _) (funext fun t => (t.returning_eq_withPast r).symm)

/-- `RUN_FRAME` answers what the loop answers from the state `FRAME_START` answers (41_scheduler R100). -/
theorem exec_runFrame {s t : State} (hready : s.hostReady = true) {m : VideoMode}
    (hm : s.cfg.videoMode? s.nextVideoMode = some m)
    (hloop : State.frameLoop m ((s.frameStart s.nextVideoMode m).returning .none).frameBound
      ((s.frameStart s.nextVideoMode m).returning .none) = some t) : exec .runFrame s = .next t := by
  obtain ⟨halive, hidle⟩ := Bool.and_eq_true_iff.1 hready
  rw [State.frameLoop_returning] at hloop
  obtain ⟨u, hu, rfl⟩ := Option.map_eq_some_iff.1 hloop
  replace hu : State.frameLoop m (s.frameStart s.nextVideoMode m).frameBound (s.frameStart s.nextVideoMode m) =
    some u := hu
  refine (betweenFrames_of_idle (eq_of_beq hidle) _).trans ((if_pos halive).trans ?_)
  rw [inMode_of_videoMode? hm, hu]
  rfl

/-! ### A micro-step is the operation `sched.seq` names -/

theorem State.returning_eq_self {s : State} {r : Result} (h : s.result = r) : s.returning r = s := by
  subst h
  rfl

theorem exec_seqInstr {s : State} (halive : s.alive = true) {m : VideoMode}
    (hm : s.cfg.videoMode? s.sched.mode = some m) (hresult : s.result = .none) (hseq : s.sched.seq ≠ .idle)
    (h : s.clk.Meets s.sched.seq) : exec (seqInstr s.sched.seq) s = .next (s.microStep m) := by
  have hreturn := State.returning_eq_self ((KeepsFrame.microStep s m).result.trans hresult)
  rw [← hreturn]
  unfold State.microStep
  split
  next hidle => exact absurd hidle hseq
  next hq => rw [hq]; exact exec_lineStart halive hm
  next hq => rw [hq] at h ⊢; exact exec_slice halive h.2
  next hq => rw [hq]; exact exec_lineEnd halive
  next hq => rw [hq]; exact exec_frameEnd halive hm

/-! ### The frame -/

/-- What holds of every state of a frame that `s` begins. -/
structure FrameState (s x : State) : Prop where
  keeps : KeepsFrame s x
  clock : x.clk.Meets x.sched.seq
  overrun : s.WithinOverrun → x.WithinOverrun

/-- 41_scheduler R101: a frame begins on its first scanline. -/
theorem Clock.startFrame_onLine (k : Clock) (c : Cfg) {m : VideoMode} (hpos : 1 ≤ m.lines) (hlt : m.lines < 2 ^ 16) :
    (k.startFrame c m).OnLine := by
  have hline : 0 < (k.startFrame c m).nlines.toNat := by rw [k.startFrame_nlines c hlt]; exact hpos
  exact ⟨hline, Clock.toNat_ofNat_threshold (k := k.startFrame c m) hline⟩

/-- 70_reset R290: the bound of `RUN_FRAME` is enough from a scanline's start on. -/
theorem State.stepsLeft_le_frameBound (s : State) : s.clk.stepsLeft .lineStart ≤ s.frameBound := by
  dsimp only [Clock.stepsLeft, State.frameBound]
  omega

theorem FrameState.microStep {u x : State} (h : FrameState u x) (hquantum : 1 ≤ u.cfg.quantum)
    (hfits : u.clk.budget.toNat + u.cfg.overrunMax < 2 ^ 32) (hseq : x.sched.seq ≠ .idle) (m : VideoMode) :
    FrameState u (x.microStep m) ∧
      (x.microStep m).clk.stepsLeft (x.microStep m).sched.seq < x.clk.stepsLeft x.sched.seq := by
  obtain ⟨hkeeps, hclock, hover⟩ := h
  rw [← hkeeps.cfg] at hquantum
  rw [← hkeeps.cfg, ← hkeeps.budget] at hfits
  have hstep := AdvancesFrame.microStep hquantum hfits hseq hclock m
  exact ⟨⟨hkeeps.trans (.microStep x m), hstep.clock, fun hu => hstep.overrun (hover hu)⟩, hstep.fewer⟩

theorem FrameState.exec {u x : State} (h : FrameState u x) (halive : u.alive = true) {m : VideoMode}
    (hm : u.cfg.videoMode? u.sched.mode = some m) (hresult : u.result = .none) (hseq : x.sched.seq ≠ .idle) :
    exec (seqInstr x.sched.seq) x = .next (x.microStep m) := by
  rw [← h.keeps.cfg, ← h.keeps.mode] at hm
  exact exec_seqInstr (h.keeps.alive.trans halive) hm (h.keeps.result.trans hresult) hseq h.clock

/-- 41_scheduler R120, R123, R124: at the end of a frame the carry is what the count ran past the budget. -/
theorem FrameState.carry {u x : State} (h : FrameState u x) (hidle : x.sched.seq = .idle) :
    x.clk.line = 0 ∧ x.clk.budget.toNat ≤ x.clk.count.toNat ∧
      x.clk.carry.toNat = x.clk.count.toNat - x.clk.budget.toNat ∧
      (u.WithinOverrun → x.clk.carry.toNat ≤ u.cfg.overrunMax) := by
  obtain ⟨hkeeps, hclock, hover⟩ := h
  rw [hidle] at hclock
  obtain ⟨hline, hbudget, hcarry⟩ := hclock
  have hdiff : x.clk.carry.toNat = x.clk.count.toNat - x.clk.budget.toNat := by
    rw [hcarry]
    exact BitVec.toNat_sub_of_le hbudget
  refine ⟨hline, hbudget, hdiff, fun hu => ?_⟩
  have hcount := hover hu
  rw [State.WithinOverrun, hkeeps.cfg] at hcount
  omega

/-- 70_reset R290: from its first scanline on, the loop of a frame stops at IDLE. -/
theorem FrameState.frameLoop {u : State} {m : VideoMode} (hquantum : 1 ≤ u.cfg.quantum)
    (hfits : u.clk.budget.toNat + u.cfg.overrunMax < 2 ^ 32) (hclock : u.clk.Meets u.sched.seq) {bound : Nat}
    (hbound : u.clk.stepsLeft u.sched.seq ≤ bound) :
    ∃ n, State.frameLoop m bound u = some (State.microSteps m n u) ∧
      (∀ j, j < n → FrameState u (State.microSteps m j u) ∧ (State.microSteps m j u).sched.seq ≠ .idle) ∧
      FrameState u (State.microSteps m n u) ∧ (State.microSteps m n u).sched.seq = .idle :=
  State.frameLoop_of_decreasing (P := FrameState u) (left := fun x => x.clk.stepsLeft x.sched.seq)
    (fun _ hx hseq => hx.microStep hquantum hfits hseq m) bound u ⟨.refl u, hclock, id⟩ hbound

/-- The state `u` that `FRAME_START` makes of `s`, as far as the rest of the frame depends on it. -/
structure FrameBegun (s : State) (m : VideoMode) (u : State) : Prop where
  cfg : u.cfg = s.cfg
  alive : u.alive = s.alive
  queue : u.queue = s.queue
  result : u.result = .none
  mode : u.sched.mode = s.nextVideoMode
  seq : u.sched.seq = .lineStart
  clk : u.clk = s.clk.startFrame s.cfg m

theorem FrameBegun.clock {s u : State} {m : VideoMode} (h : FrameBegun s m u) (hpos : 1 ≤ m.lines)
    (hlines : m.lines < 2 ^ 16) (hfits : s.cfg.budget m < 2 ^ 32) :
    u.clk.nlines.toNat = m.lines ∧ u.clk.budget.toNat = s.cfg.budget m ∧ u.clk.count = s.clk.carry ∧
      u.clk.Meets u.sched.seq := by
  rw [h.seq, h.clk]
  exact ⟨s.clk.startFrame_nlines s.cfg hlines, s.clk.startFrame_budget hfits, rfl,
    s.clk.startFrame_onLine s.cfg hpos hlines⟩

/-- Settles O14: from `FRAME_START` on each micro-step leaves fewer to come, so the loop ends, at IDLE, where the clock
shows the frame's end. -/
theorem runFrameCompletes : Obligations.RunFrameCompletes := by
  intro s m hready hwf hover hm
  obtain ⟨halive, _⟩ := Bool.and_eq_true_iff.1 hready
  obtain ⟨hpos, hlines⟩ := lines_bounds_of_videoMode? hwf hm
  obtain ⟨_, hquantum, _⟩ := Cfg.scalars_of_wf hwf
  have hfits := Cfg.budget_lt_of_noOverflow hover hm
  have hfirst := exec_frameStart halive hm
  have hrun (t : State) := exec_runFrame (t := t) hready hm
  have hbegun : FrameBegun s m ((s.frameStart s.nextVideoMode m).returning .none) :=
    ⟨rfl, rfl, rfl, rfl, rfl, rfl, rfl⟩
  generalize (s.frameStart s.nextVideoMode m).returning .none = u at hfirst hrun hbegun
  obtain ⟨hnlines, hbudget, hcarried, hclock⟩ := hbegun.clock hpos hlines (by omega)
  obtain ⟨hcfg, hualive, hqueue, hresult, hmode, hseq, _⟩ := hbegun
  rw [← hcfg] at hquantum
  rw [← hcfg, ← hmode] at hm
  obtain ⟨n, hloop, hbefore, hend, hidle⟩ := FrameState.frameLoop (m := m) (bound := u.frameBound) hquantum
    (by rw [hcfg]; omega) hclock (by rw [hseq]; exact u.stepsLeft_le_frameBound)
  obtain ⟨hline, hcount, hcarry, hwithin⟩ := hend.carry hidle
  refine ⟨n, fun j => State.microSteps m j u, State.microSteps m n u, hfirst, fun j hj => ?_, rfl, hrun _ hloop, hidle,
    hline, hend.keeps.mode.trans hmode, by rw [hend.keeps.nlines, hnlines], by rw [hend.keeps.budget, hbudget]; rfl,
    hcount, hcarry, fun hs => ?_, hend.keeps.cfg.trans hcfg, (hend.keeps.alive.trans hualive).trans halive,
    hend.keeps.queue.trans hqueue, hend.keeps.result.trans hresult⟩
  · obtain ⟨hx, hne⟩ := hbefore j hj
    have hexec (q : Seq) (hq : (State.microSteps m j u).sched.seq = q) :
        exec (seqInstr q) (State.microSteps m j u) = .next (State.microSteps m (j + 1) u) := by
      rw [← hq, State.microSteps_succ]
      exact hx.exec (hualive.trans halive) hm hresult hne
    exact ⟨hne, hexec .lineStart, hexec .slice, hexec .lineEnd, hexec .frameEnd⟩
  · rw [← hcfg] at hs ⊢
    refine hwithin ?_
    rw [State.WithinOverrun, hcarried]
    omega

end Sys2Proof.Machine
end

section
/-! The interrupt controller: the requests that latch and the source a resolution delivers (42_interrupt R130 to R138),
and O24 to O26. -/

namespace Sys2Proof.Machine

/-! ### Requests -/

/-- 42_interrupt R131: a request for a source already pending changes nothing. -/
theorem setPending_setPending (p : BitVec 9) (src : Src) : setPending (setPending p src) src = setPending p src := by
  rw [setPending, setPending, BitVec.or_assoc, BitVec.or_self]

/-- 30_encoding R81: the first nine ids are those of the sources. -/
theorem Src.exists_id_of_le {id : BitVec 4} (h : id.toNat ≤ 8) : ∃ src : Src, id = BitVec.ofNat 4 src.id.val := by
  have hsome : id.toNat < Src.all.length := Nat.lt_succ_of_le h
  have hid : ∀ (k : Nat) (hk : k < Src.all.length), Src.all[k].id.val = k := by decide
  exact ⟨Src.all[id.toNat], by rw [hid _ hsome, BitVec.ofNat_toNat, BitVec.setWidth_eq]⟩

/-- 42_interrupt R130: the bit a request sets is the one its id numbers. -/
theorem setPending_eq_shift (p : BitVec 9) (src : Src) :
    setPending p src = p ||| (1#9 <<< (BitVec.ofNat 4 src.id.val).toNat) := by
  have hid : (BitVec.ofNat 4 src.id.val).toNat = src.id.val :=
    (BitVec.toNat_ofNat _ _).trans (Nat.mod_eq_of_lt (by omega))
  rw [hid, setPending, BitVec.twoPow_eq]

/-- 42_interrupt R130: in a context a request of a source latches it, whatever the operation before returned. -/
theorem exec_irqRequest_latches {s : State} (halive : s.alive = true) (src : Src) :
    exec (.irqRequest (BitVec.ofNat 4 src.id.val)) s =
      .next { s with pend := setPending s.pend src, result := .none } :=
  exec_irqRequest_id halive src

/-- Settles O24: an id up to 8 is a source's, whose latch is idempotent; a reserved id is looked up and names none. -/
theorem irqRequestLatches : Obligations.IrqRequestLatches := by
  refine fun s id halive => ⟨fun hle => ?_, fun hge => ?_⟩
  · obtain ⟨src, rfl⟩ := Src.exists_id_of_le hle
    rw [← setPending_eq_shift]
    have hagain := exec_irqRequest_latches (s := { s with pend := setPending s.pend src, result := .none }) halive src
    rw [setPending_setPending] at hagain
    exact ⟨exec_irqRequest_latches halive src, hagain⟩
  · exact exec_irqRequest_of_ofId_eq_none halive (Src.ofId_reserved hge)

/-! ### The source of highest priority -/

@[simp] theorem pending_zero (src : Src) : pending 0#9 src = false := BitVec.getLsbD_zero

theorem mem_filter_pending {p : BitVec 9} {src : Src} : src ∈ Src.all.filter (pending p) ↔ pending p src = true := by
  simp [Src.mem_all]

/-- 42_interrupt R132: a source is found wherever a bit is pending, as each of the nine bits is a source's. -/
theorem highestPending_eq_none_iff (c : Cfg) (p : BitVec 9) : highestPending c p = none ↔ p = 0 := by
  rw [highestPending, (leastRank_spec _ _).1, List.eq_nil_iff_forall_not_mem]
  constructor
  · intro hnone
    refine pend_ext fun src => ?_
    have hclear : pending p src = false := Bool.eq_false_iff.2 (mt mem_filter_pending.2 (hnone src))
    exact hclear.trans (pending_zero src).symm
  · rintro rfl src
    simp

/-- 42_interrupt R132, R133: the source found is pending, and as ranks are not shared the rank of every other pending
source is larger. -/
theorem highestPending_spec {c : Cfg} {p : BitVec 9} {src : Src} (hprio : prioWf c.prio = true)
    (h : highestPending c p = some src) :
    pending p src = true ∧ ∀ o, pending p o = true → o ≠ src → c.prio[src.id.val] < c.prio[o.id.val] := by
  obtain ⟨hmem, hleast⟩ := (leastRank_spec _ _).2 src h
  refine ⟨mem_filter_pending.1 hmem, fun o ho hne => ?_⟩
  have hle : c.prio[src.id.val] ≤ c.prio[o.id.val] := hleast o (mem_filter_pending.2 ho)
  exact lt_of_le_of_ne hle fun heq => hne (rank_inj hprio src o heq).symm

/-! ### Resolution -/

theorem State.resolve_of_none {s : State} (h : highestPending s.cfg s.pend = none) : s.resolve = (none, s) := by
  rw [State.resolve, h]

theorem State.resolve_of_some {s : State} {src : Src} (h : highestPending s.cfg s.pend = some src) :
    s.resolve = (some (src, s.vector src), { s with pend := clearPending s.pend src }) := by
  rw [State.resolve, h]

/-- Settles O25: the source found is the one delivered, and delivery clears its bit. -/
theorem irqResolveDelivers : Obligations.IrqResolveDelivers := by
  intro s halive hprio
  rw [exec_irqResolve halive]
  refine ⟨fun hzero => ?_, fun hne => ?_⟩
  · rw [State.resolve_of_none ((highestPending_eq_none_iff _ _).2 hzero)]
    rfl
  · obtain ⟨src, hsrc⟩ := Option.ne_none_iff_exists'.1 (mt (highestPending_eq_none_iff s.cfg s.pend).1 hne)
    obtain ⟨hpending, hleast⟩ := highestPending_spec hprio hsrc
    rw [State.resolve_of_some hsrc]
    exact ⟨src, clearPending s.pend src, hpending, hleast, pending_clearPending s.pend src, rfl⟩

/-! ### Storage before the timer -/

/-- 42_interrupt R136: in an admissible vector the timer's rank lies between those of the storage sources and the
rest. -/
theorem rank_classes_of_prioWf {p : Vector Nat 9} (h : prioWf p = true) :
    (p[0] < p[2] ∧ p[1] < p[2]) ∧ ∀ (i : Nat) (hi : i < 9), 3 ≤ i → p[2] < p[i] := by
  simp only [prioWf, Bool.and_eq_true, decide_eq_true_eq, List.all_eq_true] at h
  obtain ⟨⟨_, hstorage⟩, hrest⟩ := h
  refine ⟨hstorage, fun i hi hle => hrest _ (List.mem_drop_iff_getElem.2 ⟨i - 3, ?_, ?_⟩)⟩
  · simpa using by omega
  · simp [show 3 + (i - 3) = i by omega]

/-- 42_interrupt R136: a storage source goes before every source that is none. -/
theorem storage_rank_lt {p : Vector Nat 9} (h : prioWf p = true) {o src : Src} (ho : o = .sasi ∨ o = .fdc)
    (hsasi : src ≠ .sasi) (hfdc : src ≠ .fdc) : p[o.id.val] < p[src.id.val] := by
  obtain ⟨⟨hsasiRank, hfdcRank⟩, hrest⟩ := rank_classes_of_prioWf h
  have htimer : p[o.id.val] < p[2] := by
    rcases ho with rfl | rfl
    · exact hsasiRank
    · exact hfdcRank
  cases src with
  | sasi => exact absurd rfl hsasi
  | fdc => exact absurd rfl hfdc
  | mfpTimer => exact htimer
  | vblankStart | vblankEnd | raster | key | mouse | rtc => exact htimer.trans (hrest _ _ (by decide))

/-- Settles O26: a source of another class would have a smaller rank than the storage source that is pending, which R136
excludes; so O25 delivers a storage source and leaves the timer's bit. -/
theorem storageBeforeTimer : Obligations.StorageBeforeTimer := by
  intro s halive hprio htimer hstorage
  obtain ⟨o, ho, hopending⟩ : ∃ o, (o = Src.sasi ∨ o = .fdc) ∧ pending s.pend o = true := by
    rcases hstorage with hsasi | hfdc
    · exact ⟨.sasi, .inl rfl, hsasi⟩
    · exact ⟨.fdc, .inr rfl, hfdc⟩
  have hne : s.pend ≠ 0 := fun hzero => by simp [hzero] at htimer
  obtain ⟨src, p, _, hleast, hcleared, hexec⟩ := (irqResolveDelivers s halive hprio).2 hne
  have hsrc : src = .sasi ∨ src = .fdc := by
    by_contra hother
    obtain ⟨hnsasi, hnfdc⟩ := not_or.1 hother
    have hsrc_ne : o ≠ src := fun heq => hother (heq ▸ ho)
    exact (hleast o hopending hsrc_ne).asymm (storage_rank_lt hprio ho hnsasi hnfdc)
  have hne_timer : Src.mfpTimer ≠ src := by rcases hsrc with rfl | rfl <;> decide
  refine ⟨src, _, _, hexec, hsrc, rfl, ?_, ?_⟩
  · simp [hcleared]
  · simp [hcleared, htimer, hne_timer]

end Sys2Proof.Machine
end

section
/-! The DMA channels: triggers, transfers and turns (43_dma R140 to R148), and O27 to O30. -/

namespace Sys2Proof.Machine

/-! ### The operations of a channel in a context -/

/-- 30_encoding R86: the channel numbers below 3 are those of the channels. -/
theorem channelOf_ofNat (c : Fin 3) : channelOf (BitVec.ofNat 2 c.val) = some c := by revert c; decide

section
variable {s : State} (h : s.alive = true)
include h

theorem exec_dmaComplete (c : Fin 3) :
    exec (.dmaComplete (BitVec.ofNat 2 c.val)) s = .next ((s.completeChannel c).returning .none) := by
  refine (inContext_completes h _ _).trans ?_
  rw [channelOf_ofNat]

theorem exec_dmaXfer (c : Fin 3) :
    exec (.dmaXfer (BitVec.ofNat 2 c.val)) s = .next ((s.dmaXfer c).returning .none) := by
  refine (inContext_completes h _ _).trans ?_
  rw [channelOf_ofNat]

theorem exec_dmaStep (c : Fin 3) (used : BitVec 32) :
    exec (.dmaStep (BitVec.ofNat 2 c.val) used) s = .next ((s.dmaStep c used.toNat).returning .none) :=
  exec_dmaStep_returning h c used s.result

end

/-! ### Triggers -/

/-- 43_dma R140: a busy channel and a count of 0 ignore a trigger. -/
theorem State.startChannel_of_ignored {s : State} {c : Fin 3} {count : BitVec 16}
    (h : (s.channel c).active = true ∨ count = 0) (src dst : Addr) (ss ds : BitVec 2) :
    s.startChannel c src dst count ss ds = s := if_pos h

/-- 43_dma R140: an idle channel takes a trigger whose count is not 0. -/
theorem State.startChannel_of_accepted {s : State} {c : Fin 3} {count : BitVec 16}
    (hidle : (s.channel c).active = false) (hcount : count ≠ 0) (src dst : Addr) (ss ds : BitVec 2) :
    s.startChannel c src dst count ss ds = s.withChannel c
      { src := src, dst := dst, count := count, sstep := ss, dstep := ds, credit := 0, done := false,
        active := true } :=
  if_neg (not_or.2 ⟨ne_true_of_eq_false hidle, hcount⟩)

theorem State.dmaStart_ofNat (s : State) (c : Fin 3) (src dst : Addr) (count : BitVec 16) (ss ds : BitVec 2) :
    s.dmaStart (BitVec.ofNat 2 c.val) src dst count ss ds = s.startChannel c src dst count ss ds := by
  rw [State.dmaStart, channelOf_ofNat]

/-- Settles O27: a trigger is ignored or accepted, and channel 3 is none. -/
theorem dmaStartAndComplete : Obligations.DmaStartAndComplete := by
  intro s src dst count ss ds halive
  refine ⟨exec_dmaStart halive 3 ss ds src dst count, fun c => ⟨fun hignored => ?_, fun hidle hcount => ?_, ?_⟩⟩
  · rw [exec_dmaStart halive, State.dmaStart_ofNat, State.startChannel_of_ignored hignored]
    rfl
  · rw [exec_dmaStart halive, State.dmaStart_ofNat, State.startChannel_of_accepted hidle hcount]
    rfl
  · exact exec_dmaComplete halive c

/-! ### A pointer after some bytes -/

/-- A pointer after `k` bytes, stepped by its code at each of them, modulo 2^24 (43_dma R142). -/
def advancePtr (p : Addr) (code : BitVec 2) (k : Nat) : Addr :=
  if code = 1 then p + BitVec.ofNat 24 k else if code = 2 then p - BitVec.ofNat 24 k else p

@[simp] theorem advancePtr_zero (p : Addr) (code : BitVec 2) : advancePtr p code 0 = p := by
  simp [advancePtr]

/-- 43_dma R142: `STEP` is one byte's advance. -/
theorem stepPtr_eq_advancePtr (p : Addr) (code : BitVec 2) : stepPtr p code = advancePtr p code 1 := by
  have hcode : code = 0 ∨ code = 1 ∨ code = 2 ∨ code = 3 := by revert code; decide
  rcases hcode with rfl | rfl | rfl | rfl <;> rfl

theorem stepPtr_advancePtr (p : Addr) (code : BitVec 2) (k : Nat) :
    stepPtr (advancePtr p code k) code = advancePtr p code (k + 1) := by
  rw [stepPtr_eq_advancePtr, advancePtr, advancePtr, advancePtr, BitVec.ofNat_add]
  split
  · exact BitVec.add_assoc _ _ _
  · split
    · exact BitVec.sub_sub _ _ _
    · rfl

/-! ### One byte -/

/-- The channel after `DMA.XFER` has moved a byte: stepped, and complete where that was its last (43_dma R142, R143). -/
def DmaChannel.moved (ch : DmaChannel) : DmaChannel :=
  { ch.stepped with active := ch.active && ch.countLess != 0, done := ch.done || ch.countLess == 0 }

@[simp] theorem DmaChannel.stepped_count (ch : DmaChannel) : ch.stepped.count = ch.countLess := rfl

theorem DmaChannel.moved_of_last {ch : DmaChannel} (h : ch.countLess = 0) :
    ch.moved = { ch.stepped with active := false, done := true } := by
  simp [DmaChannel.moved, h]

theorem DmaChannel.moved_of_more {ch : DmaChannel} (h : ch.countLess ≠ 0#16) : ch.moved = ch.stepped := by
  simp [DmaChannel.moved, DmaChannel.stepped, h]

theorem State.channel_withChannel_self (s : State) (c : Fin 3) (ch : DmaChannel) :
    (s.withChannel c ch).channel c = ch := (s.channel_withChannel c c ch).trans (if_pos rfl)

theorem State.withChannel_withChannel (s : State) (c : Fin 3) (ch ch' : DmaChannel) :
    (s.withChannel c ch).withChannel c ch' = s.withChannel c ch' := by
  simp [State.withChannel]

/-- 43_dma R142, R143: what `DMA.XFER` does after its two bus transactions. -/
theorem State.completeIfDone_stepChannel (s : State) (c : Fin 3) :
    (s.stepChannel c).completeIfDone c =
      { s.withChannel c (s.channel c).moved with
        calls := if (s.channel c).countLess = 0 then .dmaDone c :: s.calls else s.calls } := by
  have hstepped : (s.stepChannel c).channel c = (s.channel c).stepped := s.channel_withChannel_self c _
  by_cases hlast : (s.channel c).countLess = 0
  · rw [State.completeIfDone, hstepped, DmaChannel.stepped_count, if_pos hlast, State.completeChannel, hstepped,
      State.stepChannel, State.withChannel_withChannel, DmaChannel.moved_of_last hlast, if_pos hlast]
    rfl
  · rw [State.completeIfDone, hstepped, DmaChannel.stepped_count, if_neg hlast,
      DmaChannel.moved_of_more hlast, if_neg hlast]
    rfl

theorem State.dmaXfer_eq (s : State) (c : Fin 3) :
    s.dmaXfer c =
      { (s.moveByte c).withChannel c ((s.moveByte c).channel c).moved with
        calls := if ((s.moveByte c).channel c).countLess = 0 then .dmaDone c :: (s.moveByte c).calls
          else (s.moveByte c).calls } :=
  (s.moveByte c).completeIfDone_stepChannel c

/-- 43_dma R142: `DMA.XFER` moves its byte with one bus read and one bus write. -/
theorem exec_moveByte {s : State} (h : s.alive = true) (c : Fin 3) :
    ∃ u b, exec (.busRd8 s.dma[c.val].src) s = .next u ∧ u.result = .byte b ∧
      exec (.busWr8 u.dma[c.val].dst b) u = .next ((s.moveByte c).returning .none) :=
  ⟨_, _, exec_busRd8 h _, rfl, exec_busWr8_returning (State.busRd8_alive h _) _ _ _⟩

/-- Settles O28: the two bus transactions, then the rest of `DMA.XFER`. -/
theorem dmaXferMovesOneByte : Obligations.DmaXferMovesOneByte := by
  intro s c halive
  obtain ⟨u, b, hread, hbyte, hwrite⟩ := exec_moveByte halive c
  refine ⟨u, _, b, ((s.moveByte c).channel c).countLess, hread, hbyte, hwrite, fun hne => if_neg hne, ?_⟩
  rw [exec_dmaXfer halive, State.dmaXfer_eq, DmaChannel.moved, DmaChannel.stepped, stepPtr_eq_advancePtr,
    stepPtr_eq_advancePtr]
  rfl

end Sys2Proof.Machine
end

section
/-! A turn of a DMA channel: the bus leaves a busy channel alone, so its count bounds the loop of `DMA.STEP`
(43_dma R140 to R148); and O29. -/

namespace Sys2Proof.Machine

/-! ### A busy channel is the transfers' own -/

/-- 43_dma R140: a trigger of any channel leaves a busy one as it is. -/
theorem State.startChannel_channel_of_active {s : State} {c : Fin 3} (h : (s.channel c).active = true) (d : Fin 3)
    (src dst : Addr) (count : BitVec 16) (ss ds : BitVec 2) :
    (s.startChannel d src dst count ss ds).channel c = s.channel c := by
  unfold State.startChannel
  split
  · rfl
  · rename_i haccepted
    refine (s.channel_withChannel d c _).trans (if_neg ?_)
    rintro rfl
    exact haccepted (.inl h)

theorem State.applyEvent_channel_of_active {s : State} {c : Fin 3} (h : (s.channel c).active = true) (e : ExtEvent) :
    (s.applyEvent e).channel c = s.channel c := by
  cases e with
  | dmaStart d src dst count ss ds =>
    rw [State.applyEvent, State.dmaStart]
    split
    · exact State.startChannel_channel_of_active h _ _ _ _ _ _
    · rfl
  | _ => rw [State.channel, State.channel, State.applyEvent_dma s (by simp)]

theorem State.applyEvents_channel_of_active {s : State} {c : Fin 3} (h : (s.channel c).active = true)
    (l : List ExtEvent) : (l.foldl State.applyEvent s).channel c = s.channel c := by
  induction l generalizing s with
  | nil => rfl
  | cons e l ih =>
    have he := State.applyEvent_channel_of_active h e
    exact (ih (he ▸ h)).trans he

/-- 40_bus R99: a byte read changes no channel. -/
theorem State.busRd8_dma (s : State) (a : Addr) : (s.busRd8 a).2.dma = s.dma := by
  unfold State.busRd8
  split
  · obtain ⟨d, p, hsasi⟩ := OnlySasi.sasiDataRd s
    rw [hsasi]
  · rfl
  · unfold State.rtcRead
    split <;> rfl
  · rfl
  · rfl
  · rfl
  · rfl
  · exact s.extRead_dma a
  all_goals rfl

theorem OnlySasiStore.dma {s t : State} (h : OnlySasiStore s t) : t.dma = s.dma := by
  obtain ⟨_, _, _, rfl⟩ := h
  rfl

/-- 40_bus R99: a byte write leaves a busy channel as it is. -/
theorem State.busWr8_channel_of_active {s : State} {c : Fin 3} (h : (s.channel c).active = true) (a : Addr) (v : Byte) :
    (s.busWr8 a v).channel c = s.channel c := by
  have of_dma {t : State} (hdma : t.dma = s.dma) : t.channel c = s.channel c := by
    rw [State.channel, State.channel, hdma]
  unfold State.busWr8
  split
  · exact of_dma (OnlySasiStore.sasiDataWr s v).dma
  · exact of_dma (OnlySasi.sasiAcksel s).store.dma
  · exact of_dma (OnlySasi.sasiReset s).store.dma
  · exact of_dma (OnlySasi.sasiSelect s v).store.dma
  · rfl
  · rfl
  · unfold State.ramWrite
    split <;> rfl
  · unfold State.sramWrite
    split <;> rfl
  · exact State.applyEvents_channel_of_active (s := (s.call (.extWrite a v)).drewExtEvents) h _
  all_goals rfl

/-- 43_dma R142: the two bus transactions of a busy channel leave it as it is. -/
theorem State.moveByte_channel_of_active {s : State} {c : Fin 3} (h : (s.channel c).active = true) :
    (s.moveByte c).channel c = s.channel c := by
  have hread : (s.busRd8 (s.channel c).src).2.channel c = s.channel c := by
    rw [State.channel, State.channel, State.busRd8_dma]
  exact (State.busWr8_channel_of_active (by rwa [hread]) _ _).trans hread

theorem State.dmaXfer_channel_of_active {s : State} {c : Fin 3} (h : (s.channel c).active = true) :
    (s.dmaXfer c).channel c = (s.channel c).moved := by
  rw [State.dmaXfer_eq, State.moveByte_channel_of_active h]
  exact State.channel_withChannel_self _ _ _

/-! ### The loop of `DMA.STEP` -/

/-- The channel once a byte's cost is taken off its credit (43_dma R141). -/
def DmaChannel.paid (ch : DmaChannel) (cost : Nat) : DmaChannel :=
  { ch with credit := BitVec.ofNat 32 (ch.credit.toNat - cost) }

theorem DmaChannel.paid_eq {ch : DmaChannel} {cost : Nat} (h : cost ≤ ch.credit.toNat) :
    ch.paid cost = { ch with credit := ch.credit - BitVec.ofNat 32 cost } := by
  have hcredit : BitVec.ofNat 32 (ch.credit.toNat - cost) = ch.credit - BitVec.ofNat 32 cost := by
    rw [← BitVec.ofNat_sub_ofNat_of_le _ _ (h.trans_lt ch.credit.isLt) h, BitVec.ofNat_toNat, BitVec.setWidth_eq]
  rw [DmaChannel.paid, hcredit]

/-- One turn of the loop: a byte paid for and moved (43_dma R141). -/
def State.paidXfer (c : Fin 3) (s : State) : State :=
  (s.withChannel c ((s.channel c).paid (s.dmaCost c))).dmaXfer c

/-- What the loop asks for before a byte (43_dma R141). -/
def State.CanMove (c : Fin 3) (line : Bool) (s : State) : Prop :=
  (s.channel c).active = true ∧ s.ready c line = true ∧ s.dmaCost c ≤ (s.channel c).credit.toNat

theorem State.dmaLoop_succ {c : Fin 3} {line : Bool} {s : State} (h : s.CanMove c line) (n : Nat) :
    State.dmaLoop c line (n + 1) s = State.dmaLoop c line n (s.paidXfer c) := if_pos h

theorem State.dmaLoop_of_not_canMove {c : Fin 3} {line : Bool} {s : State} (h : ¬ s.CanMove c line) (n : Nat) :
    State.dmaLoop c line n s = s := by
  cases n with
  | zero => rfl
  | succ n => exact if_neg h

theorem State.paidXfer_channel {c : Fin 3} {s : State} (h : (s.channel c).active = true) :
    (s.paidXfer c).channel c = ((s.channel c).paid (s.dmaCost c)).moved := by
  have hpaid := s.channel_withChannel_self c ((s.channel c).paid (s.dmaCost c))
  rw [State.paidXfer, State.dmaXfer_channel_of_active, hpaid]
  rw [hpaid]
  exact h

theorem Keeps.dmaCost {s t : State} (h : Keeps s t) (c : Fin 3) : t.dmaCost c = s.dmaCost c := by
  rw [State.dmaCost, State.dmaCost, h.cfg]

theorem Keeps.paidXfer (c : Fin 3) (s : State) : Keeps s (s.paidXfer c) :=
  (Keeps.withChannel _ _ _).trans (Keeps.dmaXfer _ _)

theorem Keeps.iterate_paidXfer (c : Fin 3) (n : Nat) (s : State) : Keeps s ((State.paidXfer c)^[n] s) := by
  induction n with
  | zero => exact Keeps.refl s
  | succ n ih =>
    rw [Function.iterate_succ_apply']
    exact ih.trans (Keeps.paidXfer c _)

theorem DmaChannel.turns_pos (ch : DmaChannel) : 0 < ch.turns := by
  unfold DmaChannel.turns
  split <;> bv_omega

/-- 43_dma R142: a byte brings a channel that is still active nearer to the end of its count. -/
theorem DmaChannel.turns_moved_lt {ch : DmaChannel} (h : ch.moved.active = true) : ch.moved.turns < ch.turns := by
  have hmore : ch.countLess ≠ 0 := fun hlast => by
    rw [DmaChannel.moved_of_last hlast] at h
    cases h
  have hturns : ch.moved.turns = ch.countLess.toNat := if_neg hmore
  rw [hturns, DmaChannel.turns]
  split
  · exact ch.countLess.isLt
  · rename_i hcount
    rw [DmaChannel.countLess, if_neg hcount]
    bv_omega

/-- 43_dma R141: with turns enough for its count the loop pays for bytes until it can move no more. -/
theorem State.exists_dmaLoop_run {c : Fin 3} {line : Bool} (fuel : Nat) (s : State)
    (henough : (s.channel c).active = true → (s.channel c).turns ≤ fuel) :
    ∃ n, State.dmaLoop c line fuel s = (State.paidXfer c)^[n] s ∧
      (∀ j, j < n → ((State.paidXfer c)^[j] s).CanMove c line) ∧ ¬ ((State.paidXfer c)^[n] s).CanMove c line := by
  induction fuel generalizing s with
  | zero =>
    have hstuck : ¬ s.CanMove c line := fun hmove =>
      absurd (henough hmove.1) (Nat.not_le.2 (s.channel c).turns_pos)
    exact ⟨0, rfl, nofun, hstuck⟩
  | succ fuel ih =>
    by_cases hmove : s.CanMove c line
    · have hactive := hmove.1
      have hleft : ((s.paidXfer c).channel c).active = true → ((s.paidXfer c).channel c).turns ≤ fuel := by
        rw [State.paidXfer_channel hactive]
        intro hactive'
        have hless := DmaChannel.turns_moved_lt hactive'
        exact Nat.lt_succ_iff.1 (hless.trans_le (henough hactive))
      obtain ⟨n, hloop, hbefore, hend⟩ := ih (s.paidXfer c) hleft
      refine ⟨n + 1, (State.dmaLoop_succ hmove fuel).trans hloop, fun j hj => ?_, hend⟩
      cases j with
      | zero => exact hmove
      | succ j => exact hbefore j (Nat.lt_of_succ_lt_succ hj)
    · exact ⟨0, State.dmaLoop_of_not_canMove hmove _, nofun, hmove⟩

/-! ### `READY` -/

/-- 43_dma R145: the SASI controller is ready in the Data phase, an external owner where its line is high. -/
theorem State.ready_iff (s : State) (c : Fin 3) (line : Bool) :
    s.ready c line = true ↔ (s.cfg.dmaOwner[c.val] = .sasi → s.sasi.phase = .data) ∧
      (s.cfg.dmaOwner[c.val] ≠ .sasi → line = true) := by
  unfold State.ready
  cases howner : s.cfg.dmaOwner[c.val] <;> simp

theorem State.sampledReady_of_sasi {s : State} {c : Fin 3} (h : s.cfg.dmaOwner[c.val] = .sasi) :
    s.sampledReady c = s := by
  rw [State.sampledReady, h]

/-- 10_state R33, log 8: for an external owner the line is drawn. -/
theorem State.sampledReady_of_external {s : State} {c : Fin 3} (h : s.cfg.dmaOwner[c.val] ≠ .sasi) :
    s.sampledReady c = s.drewReady := by
  unfold State.sampledReady
  split
  · exact absurd ‹_› h
  all_goals rfl

theorem State.sampledReady_channel (s : State) (c d : Fin 3) : (s.sampledReady c).channel d = s.channel d := by
  unfold State.sampledReady
  split <;> rfl

/-! ### A turn, by readiness -/

/-- The credit of a channel that is inactive or unready is cleared (43_dma R141, R146). -/
theorem State.settleCredit_of_unready {s : State} {c : Fin 3} {line : Bool}
    (h : ¬ ((s.channel c).active = true ∧ s.ready c line = true)) : s.settleCredit c line = s.withCredit c 0 := if_neg h

theorem State.settleCredit_of_ready {s : State} {c : Fin 3} {line : Bool}
    (h : (s.channel c).active = true ∧ s.ready c line = true) : s.settleCredit c line = s := if_pos h

theorem State.dmaTurn_of_unready {s : State} {c : Fin 3} {line : Bool}
    (h : ¬ ((s.channel c).active = true ∧ s.ready c line = true)) (used : Nat) :
    s.dmaTurn c line used = s.withCredit c 0 := by
  rw [State.dmaTurn, State.dmaPaced, if_neg h, State.settleCredit_of_unready h]

/-- 43_dma R141: an inactive channel draws nothing and loses its credit. -/
theorem State.dmaStep_of_inactive {s : State} {c : Fin 3} (h : (s.channel c).active = false) (used : Nat) :
    s.dmaStep c used = s.withCredit c 0 := by
  have hinactive := ne_true_of_eq_false h
  rw [State.dmaStep, if_neg hinactive, State.dmaTurn_of_unready fun hboth => hinactive hboth.1]

theorem State.dmaStep_of_active {s : State} {c : Fin 3} (h : (s.channel c).active = true) (used : Nat) :
    s.dmaStep c used = (s.sampledReady c).dmaTurn c s.nextReady used := if_pos h

/-- 43_dma R141, R146: an active channel whose owner is not ready loses its credit. -/
theorem State.dmaStep_of_unready {s : State} {c : Fin 3} (hactive : (s.channel c).active = true)
    (hready : ¬ (s.sampledReady c).ready c s.nextReady = true) (used : Nat) :
    s.dmaStep c used = (s.sampledReady c).withCredit c 0 := by
  rw [State.dmaStep_of_active hactive, State.dmaTurn_of_unready fun hboth => hready hboth.2]

/-- An active channel of a ready owner once it is granted the cycles of the slice (43_dma R141). -/
def State.granted (s : State) (c : Fin 3) (used : Nat) : State :=
  (s.sampledReady c).withCredit c ((s.channel c).credit.toNat + used)

theorem State.granted_channel (s : State) (c : Fin 3) (used : Nat) :
    (s.granted c used).channel c =
      { s.channel c with credit := BitVec.ofNat 32 ((s.channel c).credit.toNat + used) } := by
  refine (State.channel_withChannel_self _ _ _).trans ?_
  rw [State.sampledReady_channel]

theorem Keeps.granted (s : State) (c : Fin 3) (used : Nat) : Keeps s (s.granted c used) :=
  (Keeps.sampledReady s c).trans (Keeps.withCredit _ _ _)

/-- 43_dma R141: an active channel whose owner is ready moves bytes as long as it can, and then settles its credit. -/
theorem State.exists_dmaStep_run {s : State} {c : Fin 3} (hactive : (s.channel c).active = true)
    (hready : (s.sampledReady c).ready c s.nextReady = true) (used : Nat) :
    ∃ n, s.dmaStep c used = ((State.paidXfer c)^[n] (s.granted c used)).settleCredit c s.nextReady ∧
      (∀ j, j < n → ((State.paidXfer c)^[j] (s.granted c used)).CanMove c s.nextReady) ∧
      ¬ ((State.paidXfer c)^[n] (s.granted c used)).CanMove c s.nextReady := by
  have hchannel := s.sampledReady_channel c c
  obtain ⟨n, hloop, hbefore, hend⟩ := State.exists_dmaLoop_run (c := c) (line := s.nextReady) (s.channel c).turns
    (s.granted c used) fun _ => le_of_eq (by rw [State.granted_channel]; rfl)
  refine ⟨n, ?_, hbefore, hend⟩
  rw [State.dmaStep_of_active hactive, State.dmaTurn, State.dmaPaced, hchannel, if_pos ⟨hactive, hready⟩, ← hloop]
  rfl

/-! ### The credit a turn leaves -/

/-- A channel's credit pays for no byte, and an inactive channel has none (43_dma R141, R148). -/
def State.Settled (c : Fin 3) (s : State) : Prop :=
  (s.channel c).credit.toNat < s.dmaCost c ∧ ((s.channel c).active = false → (s.channel c).credit = 0)

theorem State.withCredit_channel (s : State) (c : Fin 3) (n : Nat) :
    (s.withCredit c n).channel c = { s.channel c with credit := BitVec.ofNat 32 n } :=
  s.channel_withChannel_self c _

theorem State.settled_withCredit_zero {s : State} {c : Fin 3} (hcost : 1 ≤ s.dmaCost c) :
    (s.withCredit c 0).Settled c := by
  rw [State.Settled, State.withCredit_channel]
  exact ⟨hcost, fun _ => rfl⟩

theorem State.settled_settleCredit {s : State} {c : Fin 3} {line : Bool} (hcost : 1 ≤ s.dmaCost c)
    (h : ¬ s.CanMove c line) : (s.settleCredit c line).Settled c := by
  by_cases hready : (s.channel c).active = true ∧ s.ready c line = true
  · rw [State.settleCredit_of_ready hready]
    exact ⟨Nat.not_le.1 fun hle => h ⟨hready.1, hready.2, hle⟩, fun hinactive => by simp [hinactive] at hready⟩
  · rw [State.settleCredit_of_unready hready]
    exact State.settled_withCredit_zero hcost

/-- 43_dma R148: after its turn a channel's credit is below the cost of a byte. -/
theorem State.settled_dmaStep {s : State} {c : Fin 3} (hcost : 1 ≤ s.dmaCost c) (used : Nat) :
    (s.dmaStep c used).Settled c := by
  have hcost_of {t : State} (h : Keeps s t) : 1 ≤ t.dmaCost c := hcost.trans_eq (h.dmaCost c).symm
  cases hactive : (s.channel c).active with
  | false =>
    rw [State.dmaStep_of_inactive hactive]
    exact State.settled_withCredit_zero hcost
  | true =>
    by_cases hready : (s.sampledReady c).ready c s.nextReady = true
    · obtain ⟨n, hstep, -, hend⟩ := State.exists_dmaStep_run hactive hready used
      rw [hstep]
      exact State.settled_settleCredit (hcost_of ((Keeps.granted s c used).trans (Keeps.iterate_paidXfer c n _))) hend
    · rw [State.dmaStep_of_unready hactive hready]
      exact State.settled_withCredit_zero (hcost_of (Keeps.sampledReady s c))

/-! ### A ready channel's turn, transfer by transfer -/

/-- A ready channel's turn from its grant on: the state after each `DMA.XFER` asked for by itself, which returns nothing
(43_dma R141). -/
def State.turnState (s : State) (c : Fin 3) (used : Nat) : Nat → State
  | 0 => s.granted c used
  | j + 1 => ((State.paidXfer c)^[j + 1] (s.granted c used)).returning .none

/-- Only what is returned tells a transfer asked for by itself from a turn of the loop. -/
theorem State.turnState_eq (s : State) (c : Fin 3) (used j : Nat) :
    ∃ r, s.turnState c used j = ((State.paidXfer c)^[j] (s.granted c used)).returning r := by
  cases j with
  | zero => exact ⟨(s.granted c used).result, rfl⟩
  | succ j => exact ⟨.none, rfl⟩

theorem State.returning_returning (s : State) (r r' : Result) : (s.returning r).returning r' = s.returning r' := rfl

theorem State.withChannel_returning (s : State) (r : Result) (c : Fin 3) (ch : DmaChannel) :
    (s.returning r).withChannel c ch = (s.withChannel c ch).returning r := rfl

/-- 43_dma R141: a turn of the loop is `DMA.XFER` of a channel whose credit has paid for it. -/
theorem exec_dmaXfer_paid {s : State} (halive : s.alive = true) {c : Fin 3}
    (hcost : s.dmaCost c ≤ (s.channel c).credit.toNat) (r : Result) :
    exec (.dmaXfer (BitVec.ofNat 2 c.val)) ((s.returning r).withChannel c
      { s.channel c with credit := (s.channel c).credit - BitVec.ofNat 32 (s.dmaCost c) }) =
      .next ((s.paidXfer c).returning .none) := by
  have hpaid : (s.withChannel c ((s.channel c).paid (s.dmaCost c))).alive = true := halive
  rw [← DmaChannel.paid_eq hcost, State.withChannel_returning, exec_dmaXfer (State.returning_alive _ r ▸ hpaid),
    State.dmaXfer_returning, ← State.paidXfer, State.returning_returning]

/-- 43_dma R141, R145: the condition of the loop, spelled out over the configuration. -/
theorem State.canMove_iff {s x : State} (hcfg : x.cfg = s.cfg) {c : Fin 3} {line : Bool}
    (hline : s.cfg.dmaOwner[c.val] ≠ .sasi → line = true) :
    x.CanMove c line ↔ x.dma[c.val].active = true ∧ (s.cfg.dmaOwner[c.val] = .sasi → x.sasi.phase = .data) ∧
      s.cfg.dmaCost[c.val] ≤ x.dma[c.val].credit.toNat := by
  rw [State.CanMove, State.ready_iff, State.dmaCost, hcfg, and_iff_left hline]
  rfl

theorem State.settleCredit_eq {s x : State} (hcfg : x.cfg = s.cfg) {c : Fin 3} {line : Bool}
    (hline : s.cfg.dmaOwner[c.val] ≠ .sasi → line = true) :
    x.settleCredit c line = { x with
      dma := if x.dma[c.val].active = true ∧ (s.cfg.dmaOwner[c.val] = .sasi → x.sasi.phase = .data) then x.dma
        else x.dma.set c.val { x.dma[c.val] with credit := 0 } c.isLt } := by
  have hready : x.ready c line = true ↔ (s.cfg.dmaOwner[c.val] = .sasi → x.sasi.phase = .data) := by
    rw [State.ready_iff, hcfg, and_iff_left hline]
  split
  · rename_i hboth
    exact State.settleCredit_of_ready ⟨hboth.1, hready.2 hboth.2⟩
  · rename_i hnot
    exact State.settleCredit_of_unready fun hboth => hnot ⟨hboth.1, hready.1 hboth.2⟩

theorem State.granted_eq (s : State) (c : Fin 3) (used : BitVec 32) :
    s.granted c used.toNat = { s.sampledReady c with
      dma := s.dma.set c.val { s.dma[c.val] with credit := s.dma[c.val].credit + used } c.isLt } := by
  have hdma : (s.sampledReady c).dma = s.dma := by
    unfold State.sampledReady
    split <;> rfl
  rw [State.granted, State.withCredit, ← BitVec.add_def, State.withChannel, State.channel, State.channel, hdma]

/-- What `READY` is throughout the samplings of a turn (43_dma R145, log 8): the state after the draw, and the line. -/
theorem State.ready_of_ready_turn {s g : State} {c : Fin 3}
    (h : s.cfg.dmaOwner[c.val] = .sasi ∧ s.sasi.phase = .data ∧ g = s ∨
      s.cfg.dmaOwner[c.val] ≠ .sasi ∧ s.nextReady = true ∧ g = s.drewReady) :
    s.sampledReady c = g ∧ (s.cfg.dmaOwner[c.val] ≠ .sasi → s.nextReady = true) ∧
      (s.sampledReady c).ready c s.nextReady = true := by
  rcases h with ⟨howner, hphase, rfl⟩ | ⟨howner, hline, rfl⟩
  · have hsampled := State.sampledReady_of_sasi howner
    rw [hsampled, State.ready_iff]
    exact ⟨rfl, fun hne => absurd howner hne, fun _ => hphase, fun hne => absurd howner hne⟩
  · have hsampled := State.sampledReady_of_external howner
    rw [hsampled, State.ready_iff]
    exact ⟨rfl, fun _ => hline, fun hsasi => absurd hsasi howner, fun _ => hline⟩

/-- 43_dma R145: an owner that is not ready leaves an active channel without credit. -/
theorem exec_dmaStep_of_sasi_unready {s : State} (halive : s.alive = true) {c : Fin 3}
    (howner : s.cfg.dmaOwner[c.val] = .sasi) (hphase : s.sasi.phase ≠ .data) (used : BitVec 32) :
    exec (.dmaStep (BitVec.ofNat 2 c.val) used) s = .next ((s.withCredit c 0).returning .none) := by
  rw [exec_dmaStep halive]
  cases hactive : (s.channel c).active with
  | false => rw [State.dmaStep_of_inactive hactive]
  | true =>
    have hsampled := State.sampledReady_of_sasi howner
    have hunready : ¬ (s.sampledReady c).ready c s.nextReady = true := by
      rw [hsampled, State.ready_iff]
      exact fun hready => hphase (hready.1 howner)
    rw [State.dmaStep_of_unready hactive hunready, hsampled]

theorem exec_dmaStep_of_line_down {s : State} (halive : s.alive = true) {c : Fin 3}
    (hactive : (s.channel c).active = true) (howner : s.cfg.dmaOwner[c.val] ≠ .sasi) (hline : s.nextReady = false) (used : BitVec 32) :
    exec (.dmaStep (BitVec.ofNat 2 c.val) used) s = .next ((s.drewReady.withCredit c 0).returning .none) := by
  have hsampled := State.sampledReady_of_external howner
  have hunready : ¬ (s.sampledReady c).ready c s.nextReady = true := by
    rw [hsampled, State.ready_iff, hline]
    exact fun hready => Bool.false_ne_true (hready.2 howner)
  rw [exec_dmaStep halive, State.dmaStep_of_unready hactive hunready, hsampled]

/-- Settles O29: a turn of an inactive or unready channel clears its credit; a ready channel's is the run of its loop,
which stops where the condition of the loop fails. -/
theorem dmaStepSettlesCredit : Obligations.DmaStepSettlesCredit := by
  intro s g c used halive
  refine ⟨fun hcost => ?_, fun hunready => ?_, fun hactive howner hline => ?_, fun hactive hturn => ?_,
    inContext_completes halive _ _, inContext_completes halive _ _, inContext_completes halive _ _⟩
  · obtain ⟨hcredit, hinactive⟩ := State.settled_dmaStep (s := s) (c := c) hcost used.toNat
    rw [(Keeps.dmaStep s c used.toNat).dmaCost] at hcredit
    exact ⟨_, exec_dmaStep halive c used, hcredit, hinactive⟩
  · rcases hunready with hinactive | ⟨howner, hphase⟩
    · rw [exec_dmaStep halive, State.dmaStep_of_inactive hinactive]
      rfl
    · exact exec_dmaStep_of_sasi_unready halive howner hphase used
  · exact exec_dmaStep_of_line_down halive hactive howner hline used
  · obtain ⟨hsampled, hline, hready⟩ := State.ready_of_ready_turn hturn
    obtain ⟨n, hstep, hbefore, hend⟩ := State.exists_dmaStep_run hactive hready used.toNat
    have hkeeps (j : Nat) : Keeps s ((State.paidXfer c)^[j] (s.granted c used.toNat)) :=
      (Keeps.granted s c used.toNat).trans (Keeps.iterate_paidXfer c j _)
    refine ⟨n, s.turnState c used.toNat, _, exec_dmaStep halive c used, ?_, fun j hj => ?_, ?_, ?_⟩
    · rw [← hsampled]
      exact s.granted_eq c used
    · obtain ⟨r, hstate⟩ := s.turnState_eq c used.toNat j
      obtain ⟨hactive', hphase, hcost⟩ := (State.canMove_iff (hkeeps j).cfg hline).1 (hbefore j hj)
      obtain ⟨-, -, hpays⟩ := hbefore j hj
      have hxfer := exec_dmaXfer_paid ((hkeeps j).alive.trans halive) hpays r
      rw [(hkeeps j).dmaCost, ← Function.iterate_succ_apply' (State.paidXfer c)] at hxfer
      rw [hstate]
      exact ⟨hactive', hphase, hcost, hxfer⟩
    · obtain ⟨r, hstate⟩ := s.turnState_eq c used.toNat n
      rw [State.canMove_iff (hkeeps n).cfg hline, not_and_or, not_and_or, Bool.not_eq_true, Classical.not_imp,
        Nat.not_le] at hend
      rw [hstate]
      exact hend
    · obtain ⟨r, hstate⟩ := s.turnState_eq c used.toNat n
      rw [hstep, State.settleCredit_eq (hkeeps n).cfg hline, hstate]
      rfl

end Sys2Proof.Machine
end

section
/-! The rate of a DMA channel: where its channel stands after each byte of a turn, in closed form (43_dma R141, R142,
R148); and O30. -/

namespace Sys2Proof.Machine

/-! ### A channel after some bytes -/

/-- A busy channel after `k` bytes at `cost` each, no more than its count (43_dma R141, R142). -/
def DmaChannel.advanced (ch : DmaChannel) (cost k : Nat) : DmaChannel :=
  { ch with
    src := advancePtr ch.src ch.sstep k
    dst := advancePtr ch.dst ch.dstep k
    count := ch.count - BitVec.ofNat 16 k
    active := decide (k < ch.count.toNat)
    done := ch.done || decide (k = ch.count.toNat)
    credit := ch.credit - BitVec.ofNat 32 (k * cost) }

/-- The count comes to 0 with the last byte. -/
theorem count_sub_eq_zero_iff {count : BitVec 16} {k : Nat} (h : k ≤ count.toNat) :
    count - BitVec.ofNat 16 k = 0 ↔ k = count.toNat := by
  have hcount := count.isLt
  rw [← BitVec.toNat_inj, BitVec.toNat_sub_of_le (by rw [BitVec.le_def, BitVec.toNat_ofNat]; omega),
    BitVec.toNat_ofNat, show (0 : BitVec 16).toNat = 0 from rfl]
  omega

theorem DmaChannel.advanced_zero {ch : DmaChannel} (hactive : ch.active = true) (hcount : ch.count ≠ 0) (cost : Nat) :
    ch.advanced cost 0 = ch := by
  have hpos : 0 < ch.count.toNat := Nat.pos_of_ne_zero fun hzero => hcount (BitVec.eq_of_toNat_eq hzero)
  simp [DmaChannel.advanced, hpos, hpos.ne, ← hactive]

/-- 43_dma R142: with bytes to go, the count falls by one. -/
theorem DmaChannel.advanced_countLess {ch : DmaChannel} {cost k : Nat} (h : k < ch.count.toNat) :
    (ch.advanced cost k).countLess = ch.count - BitVec.ofNat 16 (k + 1) := by
  have hmore : (ch.advanced cost k).count ≠ 0 := fun hzero => h.ne ((count_sub_eq_zero_iff h.le).1 hzero)
  rw [DmaChannel.countLess, if_neg hmore, BitVec.ofNat_add]
  exact BitVec.sub_sub _ _ _

/-- 43_dma R141, R142: one more byte paid for and moved. -/
theorem DmaChannel.moved_paid_advanced {ch : DmaChannel} {cost k : Nat} (h : k < ch.count.toNat)
    (hcost : cost ≤ (ch.advanced cost k).credit.toNat) :
    ((ch.advanced cost k).paid cost).moved = ch.advanced cost (k + 1) := by
  have hcount := DmaChannel.advanced_countLess (cost := cost) h
  have hlast : (ch.advanced cost k).countLess = 0 ↔ k + 1 = ch.count.toNat := by
    rw [hcount]
    exact count_sub_eq_zero_iff h
  have hactive : ((ch.advanced cost k).active && (ch.advanced cost k).countLess != 0) =
      decide (k + 1 < ch.count.toNat) := by
    rw [Bool.eq_iff_iff, Bool.and_eq_true, bne_iff_ne, ne_eq, hlast, DmaChannel.advanced, decide_eq_true_iff,
      decide_eq_true_iff]
    omega
  have hdone : ((ch.advanced cost k).done || (ch.advanced cost k).countLess == 0) =
      (ch.done || decide (k + 1 = ch.count.toNat)) := by
    rw [beq_eq_decide, decide_eq_decide.2 hlast, DmaChannel.advanced, decide_eq_false h.ne, Bool.or_false]
  have hcredit : ch.credit - BitVec.ofNat 32 (k * cost) - BitVec.ofNat 32 cost =
      ch.credit - BitVec.ofNat 32 ((k + 1) * cost) := by
    rw [BitVec.sub_sub, ← BitVec.ofNat_add, Nat.succ_mul]
  calc ((ch.advanced cost k).paid cost).moved
    _ = { ch with
          src := stepPtr (advancePtr ch.src ch.sstep k) ch.sstep
          dst := stepPtr (advancePtr ch.dst ch.dstep k) ch.dstep
          count := (ch.advanced cost k).countLess
          active := (ch.advanced cost k).active && (ch.advanced cost k).countLess != 0
          done := (ch.advanced cost k).done || (ch.advanced cost k).countLess == 0
          credit := ch.credit - BitVec.ofNat 32 (k * cost) - BitVec.ofNat 32 cost } := by
      rw [DmaChannel.paid_eq hcost]
      rfl
    _ = ch.advanced cost (k + 1) := by
      rw [stepPtr_advancePtr, stepPtr_advancePtr, hactive, hdone, hcount, hcredit]
      rfl

/-- 43_dma R141: each byte takes its cost off the credit that covers it. -/
theorem DmaChannel.advanced_credit {ch : DmaChannel} {cost k : Nat} (h : k * cost ≤ ch.credit.toNat) :
    (ch.advanced cost k).credit.toNat = ch.credit.toNat - k * cost := by
  have hfits : (BitVec.ofNat 32 (k * cost)).toNat = k * cost :=
    (BitVec.toNat_ofNat _ _).trans (Nat.mod_eq_of_lt (h.trans_lt ch.credit.isLt))
  rw [DmaChannel.advanced, BitVec.toNat_sub_of_le (by rwa [BitVec.le_def, hfits]), hfits]

/-! ### A run of the loop -/

/-- 43_dma R141: after `k` turns of the loop, each of which could move its byte, a busy channel has advanced by `k`
bytes, which its count covers and its credit has paid for. -/
theorem State.iterate_paidXfer_channel {c : Fin 3} {line : Bool} {u : State} (hactive : (u.channel c).active = true)
    (hcount : (u.channel c).count ≠ 0) {k : Nat}
    (hmoves : ∀ j, j < k → ((State.paidXfer c)^[j] u).CanMove c line) :
    ((State.paidXfer c)^[k] u).channel c = (u.channel c).advanced (u.dmaCost c) k ∧
      k ≤ (u.channel c).count.toNat ∧ k * u.dmaCost c ≤ (u.channel c).credit.toNat := by
  induction k with
  | zero => exact ⟨(DmaChannel.advanced_zero hactive hcount _).symm, by omega, by omega⟩
  | succ k ih =>
    obtain ⟨hchannel, -, hpaid⟩ := ih fun j hj => hmoves j (Nat.lt_succ_of_lt hj)
    obtain ⟨hactive', -, hcost⟩ := hmoves k (Nat.lt_succ_self k)
    have hcost_eq := (Keeps.iterate_paidXfer c k u).dmaCost c
    rw [hchannel, hcost_eq] at hcost
    have hmore : k < (u.channel c).count.toNat := by
      rw [hchannel] at hactive'
      exact of_decide_eq_true hactive'
    refine ⟨?_, hmore, ?_⟩
    · rw [Function.iterate_succ_apply', State.paidXfer_channel hactive', hchannel, hcost_eq]
      exact DmaChannel.moved_paid_advanced hmore hcost
    · rw [DmaChannel.advanced_credit hpaid] at hcost
      rw [Nat.succ_mul]
      omega

/-- 43_dma R141, R142: a run of the loop at whose end the owner is still ready is as long as the count and the credit
allow. -/
theorem State.run_length {c : Fin 3} {line : Bool} {u : State} (hcost : 1 ≤ u.dmaCost c)
    (hactive : (u.channel c).active = true) (hcount : (u.channel c).count ≠ 0) {n : Nat}
    (hmoves : ∀ j, j < n → ((State.paidXfer c)^[j] u).CanMove c line)
    (hend : ¬ ((State.paidXfer c)^[n] u).CanMove c line) (hready : ((State.paidXfer c)^[n] u).ready c line = true) :
    n = min (u.channel c).count.toNat ((u.channel c).credit.toNat / u.dmaCost c) := by
  obtain ⟨hchannel, hle, hpaid⟩ := State.iterate_paidXfer_channel hactive hcount hmoves
  have hcost_eq := (Keeps.iterate_paidXfer c n u).dmaCost c
  have hle_div : n ≤ (u.channel c).credit.toNat / u.dmaCost c := (Nat.le_div_iff_mul_le hcost).2 hpaid
  refine le_antisymm (le_min hle hle_div) (not_lt.1 fun hlt => hend ?_)
  obtain ⟨hmore, hmore_div⟩ := lt_min_iff.1 hlt
  have hnext : (n + 1) * u.dmaCost c ≤ (u.channel c).credit.toNat := (Nat.le_div_iff_mul_le hcost).1 hmore_div
  rw [State.CanMove, hchannel, hcost_eq, DmaChannel.advanced_credit hpaid]
  rw [Nat.succ_mul] at hnext
  exact ⟨decide_eq_true hmore, hready, by omega⟩

/-! ### The channel after a ready turn -/

theorem State.settleCredit_ready (s : State) (c : Fin 3) (line line' : Bool) :
    (s.settleCredit c line).ready c line' = s.ready c line' := by
  unfold State.settleCredit
  split <;> rfl

/-- 43_dma R146: a ready channel keeps its credit where it is active, and has none where it is not. -/
theorem State.settleCredit_channel_of_ready {s : State} {c : Fin 3} {line : Bool} (h : s.ready c line = true) :
    (s.settleCredit c line).channel c =
      { s.channel c with credit := if (s.channel c).active = true then (s.channel c).credit else 0 } := by
  by_cases hactive : (s.channel c).active = true
  · rw [State.settleCredit_of_ready ⟨hactive, h⟩, if_pos hactive]
  · rw [State.settleCredit_of_unready fun hboth => hactive hboth.1, State.withCredit_channel, if_neg hactive]
    rfl

/-- 43_dma R141, R142, R148: the channel after a turn before and after which its owner is ready. -/
theorem State.dmaStep_channel_of_ready {s : State} {c : Fin 3} {used : BitVec 32} (hcost : 1 ≤ s.dmaCost c)
    (hactive : (s.channel c).active = true) (hcount : (s.channel c).count ≠ 0)
    (hfits : (s.channel c).credit.toNat + used.toNat < 2 ^ 32)
    (hbefore : (s.sampledReady c).ready c s.nextReady = true)
    (hafter : (s.dmaStep c used.toNat).ready c s.nextReady = true) {k : Nat}
    (hk : k = min (s.channel c).count.toNat (((s.channel c).credit.toNat + used.toNat) / s.dmaCost c)) :
    (s.dmaStep c used.toNat).channel c =
      { ({ s.channel c with credit := (s.channel c).credit + used } : DmaChannel).advanced (s.dmaCost c) k with
        credit := if k < (s.channel c).count.toNat then
            (s.channel c).credit + used - BitVec.ofNat 32 (k * s.dmaCost c) else 0 } := by
  obtain ⟨n, hstep, hmoves, hend⟩ := State.exists_dmaStep_run hactive hbefore used.toNat
  have hgranted : (s.granted c used.toNat).channel c =
      { s.channel c with credit := (s.channel c).credit + used } := s.granted_channel c used.toNat
  have hgranted_cost := (Keeps.granted s c used.toNat).dmaCost c
  rw [hstep, State.settleCredit_ready] at hafter
  have hn := State.run_length (hgranted_cost ▸ hcost) (hgranted ▸ hactive) (hgranted ▸ hcount) hmoves hend hafter
  obtain ⟨hchannel, -, -⟩ :=
    State.iterate_paidXfer_channel (hgranted ▸ hactive) (hgranted ▸ hcount) hmoves
  rw [hgranted, hgranted_cost, BitVec.toNat_add_of_lt hfits, ← hk] at hn
  subst hn
  rw [hstep, State.settleCredit_channel_of_ready hafter, hchannel, hgranted, hgranted_cost]
  simp only [DmaChannel.advanced, decide_eq_true_eq]

/-- Settles O30: an owner ready after the turn did not end it, as a turn ends for good where its owner is not ready; so
the turn is as long as the count and the credit allow. -/
theorem dmaStepRate : Obligations.DmaStepRate := by
  intro s c used k halive hcost hactive hcount hfits hk
  refine ⟨_, exec_dmaStep halive c used, fun hturn => ?_⟩
  have hcfg := (Keeps.dmaStep s c used.toNat).cfg
  have hboth : (s.sampledReady c).ready c s.nextReady = true ∧
      (s.dmaStep c used.toNat).ready c s.nextReady = true := by
    rw [State.ready_iff (s.dmaStep c used.toNat), hcfg]
    rcases hturn with ⟨howner, hline⟩ | ⟨howner, hphase, hphase'⟩
    · obtain ⟨-, hlines, hready⟩ := State.ready_of_ready_turn (.inr ⟨howner, hline, rfl⟩)
      exact ⟨hready, fun hsasi => absurd hsasi howner, hlines⟩
    · obtain ⟨-, hlines, hready⟩ := State.ready_of_ready_turn (.inl ⟨howner, hphase, rfl⟩)
      exact ⟨hready, fun _ => hphase', hlines⟩
  exact State.dmaStep_channel_of_ready hcost hactive hcount hfits hboth.1 hboth.2 hk

end Sys2Proof.Machine
end

section
/-! The SASI controller: how a command ends, what a command block holds, and its operations in a context
(44_sasi R160 to R188). -/

namespace Sys2Proof.Machine

/-! ### The ends of a command (44_sasi R182) -/

/-- 44_sasi R182: Status is entered with a request of source 0. -/
theorem State.enterStatus_eq (s : State) :
    s.enterStatus = { s with sasi := { s.sasi with phase := .status }, pend := s.pend ||| 1#9 } := rfl

theorem State.endCommand_eq (s : State) (stat : Byte) :
    s.endCommand stat =
      { s with sasi := { s.sasi with stat := stat, phase := .status }, pend := s.pend ||| 1#9 } := rfl

theorem State.failCommand_eq (s : State) (error : Byte) :
    s.failCommand error =
      { s with
        sasi := { s.sasi with stat := 0x02, error := error, phase := .status }, pend := s.pend ||| 1#9 } := rfl

/-! ### The fields of a command block (30_encoding R76) -/

/-- 30_encoding R76: a buffer filled from a 48-bit block holds that block. -/
theorem Sasi.block_of_cmd {d : Sasi} {w : BitVec 48} (h : d.cmd = cmdOfBlock w) : d.block = w := by
  have hbytes : d.block =
      blockByte w 0 ++ blockByte w 1 ++ blockByte w 2 ++ blockByte w 3 ++ blockByte w 4 ++ blockByte w 5 := by
    simp only [Sasi.block, Sasi.cmdByte, h]
    rfl
  rw [hbytes]
  simp only [blockByte]
  rw [extractLsb'_append_adjacent w 32 8 8, extractLsb'_append_adjacent w 24 8 16,
    extractLsb'_append_adjacent w 16 8 24, extractLsb'_append_adjacent w 8 8 32, extractLsb'_append_adjacent w 0 8 40]
  exact BitVec.extractLsb'_eq_self

/-- The state once a command block is taken in: the block in the buffer and its unit latched (44_sasi R165, R166,
log 7). -/
theorem State.withBlock_eq (s : State) (op : Byte) (b : Cdb) :
    s.withBlock op b = s.withSasi { s.sasi with cmd := cmdOfBlock (b.block op), unit := b.unit } := by
  have hunit : ({ s.sasi with cmd := cmdOfBlock (b.block op) } : Sasi).unitField = b.unit := by
    rw [Sasi.unitField, Sasi.block_of_cmd rfl, Cdb.ofBlock_block]
  rw [State.withBlock, State.latchUnit, State.withSasi_sasi, hunit]
  rfl

/-- 44_sasi R171, R172: what Read and Write latch, in the fields of the command block. -/
theorem Sasi.beginTransfer_eq {d : Sasi} {op : Byte} {b : Cdb} (h : d.cmd = cmdOfBlock (b.block op)) (rw : Bool) :
    d.beginTransfer rw = { d with
      sector := b.sector.setWidth 32, blocks := if b.blocks = 0 then 256 else b.blocks.setWidth 16
      rw := rw, bufptr := 0, stat := 0x00 } := by
  simp only [Sasi.beginTransfer, Sasi.sectorField, Sasi.blocksField, Sasi.block_of_cmd h, Cdb.ofBlock_block]

/-! ### The operations in a context -/

section
variable {s : State} (h : s.alive = true)
include h

theorem exec_sasiSelectWr (v : Byte) : exec (.sasiSelectWr v) s = .next ((s.sasiSelect v).returning .none) :=
  inContext_completes h _ _

theorem exec_sasiAckselWr (v : Byte) : exec (.sasiAckselWr v) s = .next (s.sasiAcksel.returning .none) :=
  inContext_completes h _ _

theorem exec_sasiStatusRd : exec .sasiStatusRd s = .next (s.returning (.byte s.sasi.statusByte)) :=
  inContext_completes h _ _

theorem exec_sasiCmdbyte (v : Byte) : exec (.sasiCmdbyte v) s = .next ((s.cmdbyte v).returning .none) :=
  inContext_completes h _ _

theorem exec_sasiExecute_context : exec .sasiExecute s = .next (s.sasiExecute.returning .none) :=
  inContext_completes h _ _

theorem exec_sasiDatain : exec .sasiDatain s = .next (s.datain.returning (.byte s.sasi.dataByte)) :=
  inContext_completes h _ _

theorem exec_sasiDataout (v : Byte) : exec (.sasiDataout v) s = .next ((s.dataout v).returning .none) :=
  inContext_completes h _ _

theorem exec_sasiStatusbyte : exec .sasiStatusbyte s = .next (s.statusbyte.returning (.byte s.sasi.stat)) :=
  inContext_completes h _ _

theorem exec_sasiMsgbyte : exec .sasiMsgbyte s = .next (s.msgbyte.returning (.byte 0x00)) :=
  inContext_completes h _ _

theorem exec_sasiSensebyte : exec .sasiSensebyte s = .next (s.sensebyte.returning (.byte s.sasi.senseByte)) :=
  inContext_completes h _ _

theorem exec_sasiVendorbyte (v : Byte) : exec (.sasiVendorbyte v) s = .next (s.vendorbyte.returning .none) :=
  inContext_completes h _ _

/-- 44_sasi R166: a command operation takes its block in and runs the command of its opcode. -/
theorem exec_command {op : Byte} {k : CmdOp} (hop : cmdOpOf op = k) (b : Cdb) :
    exec (cmdInstr op b k) s = .next (((s.withBlock op b).runCommand k).returning .none) := by
  subst hop
  rw [exec_cmdInstr, inContext_completes h]

/-- 44_sasi R175: the unsupported command is so whatever the opcode it is asked for with. -/
theorem exec_sasiCmdUnsupported (op : Byte) (b : Cdb) :
    exec (.sasiCmdUnsupported op b) s = .next ((s.withBlock op b).unsupported.returning .none) :=
  inContext_completes h _ _

end

end Sys2Proof.Machine
end

section
/-! The handshake ports, the status port, the Status and Message phases and phase violations of the SASI controller,
and O31, O32, O40 and O41 (44_sasi R161 to R164, R178, R179, R182, R183, R188). -/

namespace Sys2Proof.Machine

/-! ### Selection (44_sasi R161) -/

/-- 30_encoding R75: a selection byte names the device of its lowest set bit. -/
theorem lowestBit_eq_some {v : Byte} {d : Fin 8} (hset : v.getLsbD d = true)
    (hlower : ∀ j, j < d.val → v.getLsbD j = false) : lowestBit v = some d := by
  refine List.find?_eq_some_iff_getElem.2 ⟨hset, d.val, by simp, by simp, fun j hj => ?_⟩
  simp [hlower j hj]

/-- 30_encoding R75: the byte 0 names no device. -/
theorem lowestBit_zero : lowestBit 0 = none := rfl

theorem State.sasiSelect_of_device {s : State} {v : Byte} {d : Fin 8} (hphase : s.sasi.phase = .busFree)
    (hbit : lowestBit v = some d) :
    s.sasiSelect v = if deviceConfigured s.cfg d then
      s.withSasi { s.sasi with device := BitVec.ofNat 7 d.val, phase := .selection } else s := by
  simp only [State.sasiSelect, hphase, hbit]

/-- 44_sasi R161: outside BusFree, or where no device is named, a selection is ignored. -/
theorem State.sasiSelect_of_ignored {s : State} {v : Byte} (h : s.sasi.phase ≠ .busFree ∨ lowestBit v = none) :
    s.sasiSelect v = s := by
  unfold State.sasiSelect
  cases hphase : s.sasi.phase with
  | busFree => rw [h.resolve_left (fun hne => hne hphase)]
  | _ => rfl

/-- 30_encoding R75: a device answers where either of its units has an image. -/
theorem deviceConfigured_iff (c : Cfg) (d : Fin 8) :
    deviceConfigured c d = true ↔ (c.hd[2 * d.val]?).join.isSome ∨ (c.hd[2 * d.val + 1]?).join.isSome := by
  rw [deviceConfigured, Bool.or_eq_true]

/-- Settles O31: the lowest bit decides the device and its units' images the answer; the other ports look at the phase
alone. -/
theorem sasiHandshakePorts : Obligations.SasiHandshakePorts := by
  intro s v halive
  have hselect := exec_sasiSelectWr halive v
  have hacksel := exec_sasiAckselWr halive v
  refine ⟨fun d hphase hset hlower => ?_, fun hignored => ?_, fun hphase => ?_, fun hphase => ?_, ?_⟩
  · rw [State.sasiSelect_of_device hphase (lowestBit_eq_some hset hlower)] at hselect
    refine ⟨fun himage => ?_, fun hlow hhigh => ?_⟩
    · rw [hselect, if_pos ((deviceConfigured_iff _ _).2 himage)]
      rfl
    · rw [hselect, if_neg (by simp [deviceConfigured_iff, hlow, hhigh])]
      rfl
  · rw [hselect, State.sasiSelect_of_ignored (hignored.imp_right (by rintro rfl; exact lowestBit_zero))]
    rfl
  · rw [hacksel, State.sasiAcksel, if_pos hphase]
    rfl
  · rw [hacksel, State.sasiAcksel, if_neg hphase]
    rfl
  · exact inContext_completes halive _ _

/-! ### The status port (44_sasi R164) -/

/-- 30_encoding R78: the status byte is computed from the phase, and in the Data phase from the direction. -/
theorem Sasi.statusByte_eq (d : Sasi) :
    d.statusByte = match d.phase with
      | .busFree => 0x00 | .selection => 0x02 | .command => 0x0B | .data => if d.rw then 0x07 else 0x03
      | .status => 0x0F | .message => 0x1F | .senseStatus => 0x07 | .vendorInit => 0x03 := by
  unfold Sasi.statusByte
  cases d.phase <;> cases d.rw <;> rfl

/-- Settles O32: the phase decides the five bits. -/
theorem sasiStatusByte : Obligations.SasiStatusByte := by
  intro s halive
  rw [exec_sasiStatusRd halive, Sasi.statusByte_eq]
  rfl

/-! ### Status, Message and violations -/

/-- Settles O40: each operation is one record update, or none. -/
theorem sasiStatusAndMessage : Obligations.SasiStatusAndMessage := fun _ _ halive =>
  ⟨exec_sasiStatusbyte halive, exec_sasiMsgbyte halive, inContext_completes halive _ _,
    inContext_completes halive _ _, inContext_completes halive _ _⟩

/-- 44_sasi R188: a violation drops what was partly transferred and fails the command. -/
theorem State.violate_eq (s : State) :
    s.violate = { s with
      sasi := { s.sasi with
        stat := 0x02, error := s.cfg.sasiErrInvalid, cmdptr := 0, bufptr := 0, senseptr := 0, vptr := 0
        phase := .status }
      pend := s.pend ||| 1#9 } := rfl

/-- Settles O41: both directions of a violation are `SasiViolate`. -/
theorem sasiViolation : Obligations.SasiViolation := by
  rintro s v d halive rfl
  have hrd := inContext_completes halive s.violate (.byte 0x00)
  have hwr := inContext_completes halive s.violate .none
  rw [State.violate_eq] at hrd hwr
  exact ⟨hrd, hwr⟩

end Sys2Proof.Machine
end

section
/-! The command phase, the commands without a Data phase, sense bytes and vendor bytes, and O33, O34, O36 and O37
(44_sasi R165 to R170, R173 to R175, R180, R181). -/

namespace Sys2Proof.Machine

/-! ### Command bytes (44_sasi R165) -/

theorem State.cmdbyte_of_lt {s : State} (v : Byte) (h : s.sasi.cmdptr.toNat < 5) :
    s.cmdbyte v = s.withSasi { s.sasi with
      cmd := s.sasi.cmd.set s.sasi.cmdptr.toNat v, cmdptr := s.sasi.cmdptr + 1 } := by
  have hnext : s.sasi.cmdptr + 1 ≠ 6 := by bv_omega
  have hcmd : s.sasi.cmd.setIfInBounds s.sasi.cmdptr.toNat v = s.sasi.cmd.set s.sasi.cmdptr.toNat v := by
    simp [Vector.setIfInBounds, Vector.set, Array.setIfInBounds, show s.sasi.cmdptr.toNat < 6 by omega]
  simp only [State.cmdbyte, if_neg hnext, hcmd]

theorem State.cmdbyte_of_last {s : State} (v : Byte) (h : s.sasi.cmdptr = 5) :
    s.cmdbyte v = (s.withSasi { s.sasi with cmd := s.sasi.cmd.set 5 v, cmdptr := 0 }).sasiExecute := by
  have hcmd : s.sasi.cmd.setIfInBounds 5 v = s.sasi.cmd.set 5 v := by
    simp [Vector.setIfInBounds, Vector.set, Array.setIfInBounds]
  have hptr : s.sasi.cmdptr.toNat = 5 := by rw [h]; rfl
  have hnext : s.sasi.cmdptr + 1 = 6 := by rw [h]; rfl
  simp only [State.cmdbyte, if_pos hnext, hptr, hcmd]

/-- Settles O33: the fill pointer decides whether the byte is the last of the block. -/
theorem sasiCommandBytes : Obligations.SasiCommandBytes := by
  intro s v halive
  rw [exec_sasiCmdbyte halive v]
  refine ⟨fun k hptr => ?_, fun hptr => ?_⟩
  · obtain ⟨k, hk⟩ := k
    obtain rfl : s.sasi.cmdptr.toNat = k := hptr
    rw [State.cmdbyte_of_lt v hk]
    rfl
  · rw [State.cmdbyte_of_last v hptr]
    exact (exec_sasiExecute_context 
      (s := s.withSasi { s.sasi with cmd := s.sasi.cmd.set 5 v, cmdptr := 0 }) halive).symm

/-! ### Commands without a Data phase (44_sasi R167, R168, R170, R173, R175) -/

/-- The image a command block addresses: the selected device's, of the unit it names (44_sasi R166). -/
theorem State.unitImage_withBlock (s : State) (op : Byte) (b : Cdb) :
    (s.withBlock op b).unitImage = (s.cfg.hd[2 * s.sasi.device.toNat + b.unit.toNat]?).join := by
  rw [State.withBlock_eq]
  rfl

section
variable {s : State}

theorem State.testReady_of_isSome (h : s.unitImage.isSome = true) : s.testReady = s.endCommand 0x00 := if_pos h

theorem State.testReady_of_none (h : s.unitImage = none) : s.testReady = s.failCommand errNoImage := by
  rw [State.testReady, h]
  rfl

theorem State.seekUnit_eq_testReady (s : State) : s.seekUnit = s.testReady := rfl

theorem State.recalibrate_of_isSome (h : s.unitImage.isSome = true) :
    s.recalibrate = (s.withSasi { s.sasi with sector := 0 }).endCommand 0x00 := if_pos h

theorem State.recalibrate_of_none (h : s.unitImage = none) : s.recalibrate = s.failCommand errNoImage := by
  rw [State.recalibrate, h]
  rfl

end

/-- Settles O34: each command ends, and only the image of the addressed unit decides how. -/
theorem sasiShortCommands : Obligations.SasiShortCommands := by
  intro s b op d halive hd
  have hformat := exec_command halive (op := 0x04) rfl b
  have hready := exec_command halive (op := 0x00) rfl b
  have hrecalibrate := exec_command halive (op := 0x01) rfl b
  have hseek := exec_command halive (op := 0x0B) rfl b
  simp only [State.runCommand, State.seekUnit_eq_testReady] at hformat hready hrecalibrate hseek
  refine ⟨hformat.trans ?_, (exec_sasiCmdUnsupported halive op b).trans ?_, fun himage => ?_, fun himage => ?_⟩
  · rw [hd, State.withBlock_eq]
    rfl
  · rw [hd, State.withBlock_eq]
    rfl
  · have hunit (o : Byte) : (s.withBlock o b).unitImage.isSome = true := s.unitImage_withBlock o b ▸ himage
    rw [State.testReady_of_isSome (hunit _)] at hready hseek
    rw [State.recalibrate_of_isSome (hunit _)] at hrecalibrate
    rw [State.withBlock_eq] at hready hseek hrecalibrate
    rw [hd, hd, hd]
    exact ⟨hready, hrecalibrate, hseek⟩
  · have hunit (o : Byte) : (s.withBlock o b).unitImage = none := (s.unitImage_withBlock o b).trans himage
    rw [State.testReady_of_none (hunit _)] at hready hseek
    rw [State.recalibrate_of_none (hunit _)] at hrecalibrate
    rw [State.withBlock_eq] at hready hseek hrecalibrate
    rw [hd, hd, hd]
    exact ⟨hready, hrecalibrate, hseek⟩

/-! ### Sense bytes (44_sasi R169, R180) -/

theorem State.sensebyte_of_lt {s : State} (h : s.sasi.senseptr.toNat < 3) :
    s.sensebyte = s.withSasi { s.sasi with senseptr := s.sasi.senseptr + 1 } := by
  have hnext : (s.sasi.senseptr + 1).toNat ≠ Config.sasiSenseLen := by
    rw [Config.sasiSenseLen]
    bv_omega
  simp only [State.sensebyte, if_neg hnext]

theorem State.sensebyte_of_last {s : State} (h : s.sasi.senseptr = 3) :
    s.sensebyte = (s.withSasi { s.sasi with senseptr := 0 }).enterStatus := by
  have hnext : (s.sasi.senseptr + 1).toNat = Config.sasiSenseLen := by rw [h]; rfl
  simp only [State.sensebyte, if_pos hnext]

theorem Sasi.senseByte_of_toNat_eq {d : Sasi} {k : Nat} (hptr : d.senseptr.toNat = k) (hk : k < 4) :
    d.senseByte = d.sense[k] := by
  rw [Sasi.senseByte, hptr, Vector.getElem?_eq_getElem hk, Option.getD_some]

/-- Settles O36: the sense bytes are laid out by the command, and the pointer decides which one goes out. -/
theorem sasiSense : Obligations.SasiSense := by
  intro s b halive
  refine ⟨(exec_command halive (op := 0x03) rfl b).trans ?_, fun k hptr => ?_, fun hptr => ?_⟩
  · rw [State.withBlock_eq]
    rfl
  · rw [exec_sasiSensebyte halive, State.sensebyte_of_lt (hptr ▸ k.isLt),
      Sasi.senseByte_of_toNat_eq hptr (by omega)]
    rfl
  · rw [exec_sasiSensebyte halive, State.sensebyte_of_last hptr,
      Sasi.senseByte_of_toNat_eq (k := 3) (by rw [hptr]; rfl) (by decide), State.enterStatus_eq]
    rfl

/-! ### Vendor bytes (44_sasi R174, R181) -/

theorem State.vendorbyte_of_lt {s : State} (h : s.sasi.vptr.toNat < 9) :
    s.vendorbyte = s.withSasi { s.sasi with vptr := s.sasi.vptr + 1 } := by
  have hnext : (s.sasi.vptr + 1).toNat ≠ Config.sasiVendorLen := by
    rw [Config.sasiVendorLen]
    bv_omega
  simp only [State.vendorbyte, if_neg hnext]

theorem State.vendorbyte_of_last {s : State} (h : s.sasi.vptr = 9) :
    s.vendorbyte = (s.withSasi { s.sasi with vptr := 0 }).endCommand 0x00 := by
  have hnext : (s.sasi.vptr + 1).toNat = Config.sasiVendorLen := by rw [h]; rfl
  simp only [State.vendorbyte, if_pos hnext]

/-- Settles O37: the pointer decides whether the byte is the tenth. -/
theorem sasiVendor : Obligations.SasiVendor := by
  intro s b v halive
  refine ⟨(exec_command halive (op := 0xC2) rfl b).trans ?_, fun hptr => ?_, fun hptr => ?_⟩
  · rw [State.withBlock_eq]
    rfl
  · rw [exec_sasiVendorbyte halive, State.vendorbyte_of_lt hptr]
    rfl
  · rw [exec_sasiVendorbyte halive, State.vendorbyte_of_last hptr, State.endCommand_eq]
    rfl

end Sys2Proof.Machine
end

section
/-! The three primitives over a backing image by what the handle names, and O44 (44_sasi R184). -/

namespace Sys2Proof.Machine

/-! ### Handles and images -/

section
variable {s : State} {h : Option Handle} {off n : Nat}

/-- 44_sasi R184: a read whose range is not in an image has no bytes. -/
theorem State.imgRead_of_imgOk_eq_false (hok : s.imgOk h off n = false) : s.imgRead h off n = none := by
  rw [← Option.isNone_iff_eq_none, ← Option.not_isSome, State.imgRead_isSome, hok]
  rfl

/-- 44_sasi R184: a write whose range is not in an image changes nothing. -/
theorem State.imgWrite_of_imgOk_eq_false {bs : List Byte} (hok : s.imgOk h off bs.length = false) :
    s.imgWrite h off bs = (false, s) := by
  rcases s.imgWrite_spec h off bs with ⟨_, hwrite⟩ | ⟨_, _, _, _, _, hok', _⟩
  · exact hwrite
  · cases hok.symm.trans hok'

/-- Where no image is named, no range is in one (44_sasi R184, log 28). -/
theorem State.imgOk_of_image?_eq_none (himage : s.image? h = none) (off n : Nat) : s.imgOk h off n = false := by
  rw [State.imgOk, himage]

theorem State.imgOk_of_image? {im : Image} (himage : s.image? h = some im) (off n : Nat) :
    s.imgOk h off n = decide (off + n ≤ im.size) := by
  rw [State.imgOk, himage]

theorem State.imgRead_of_image? {im : Image} (himage : s.image? h = some im) (hfits : off + n ≤ im.size) :
    s.imgRead h off n = some (Memory.readRange im.bytes off n) := by
  simp only [State.imgRead, himage, if_pos hfits]

end

/-- 44_sasi R184: byte `j` of a range read out. -/
theorem Memory.readRange_getElem? (m : Memory) (off : Nat) {n j : Nat} (h : j < n) :
    (Memory.readRange m off n)[j]? = some (Memory.read m (off + j)) := by
  have hj : j < (Memory.readRange m off n).length := by rwa [Memory.readRange_length]
  rw [List.getElem?_eq_getElem hj, ← Memory.readRange_getD m off n j h 0, List.getD_eq_getElem _ _ hj]

/-! ### A write inside an image -/

/-- The state once bytes are written into the image of a handle (44_sasi R184). -/
def State.imageWritten (s : State) (k : Handle) (im : Image) (off : Nat) (bs : List Byte) : State :=
  { s with store := setImage s.store k { im with bytes := Memory.writeRange im.bytes off bs } }

section
variable {s : State} {k : Handle} {im : Image} {off : Nat} {bs : List Byte}

theorem State.imgWrite_of_image? (himage : s.image? (some k) = some im) (hfits : off + bs.length ≤ im.size) :
    s.imgWrite (some k) off bs = (true, s.imageWritten k im off bs) := by
  simp only [State.imgWrite, himage, if_pos hfits]
  rfl

variable (himage : findImage s.store k = some im)
include himage

theorem State.findImage_imageWritten (off : Nat) (bs : List Byte) (j : Handle) :
    findImage (s.imageWritten k im off bs).store j =
      if j = k then some { im with bytes := Memory.writeRange im.bytes off bs } else findImage s.store j :=
  findImage_setImage _ _ _ _ _ himage

/-- 44_sasi R184: a write changes the bytes of its range in its own image, whose size stays, and no other image. -/
theorem State.imageWritten_spec (hwf : Memory.wf im.size im.bytes = true) (hfits : off + bs.length ≤ im.size) :
    (∃ im', findImage (s.imageWritten k im off bs).store k = some im' ∧ im'.size = im.size ∧
      ∀ a, Memory.read im'.bytes a =
        if off ≤ a ∧ a < off + bs.length then bs.getD (a - off) 0 else Memory.read im.bytes a) ∧
    ∀ j, j ≠ k → findImage (s.imageWritten k im off bs).store j = findImage s.store j :=
  ⟨⟨_, (State.findImage_imageWritten himage off bs k).trans (if_pos rfl), rfl, Memory.read_writeRange hfits hwf⟩,
    fun j hj => (State.findImage_imageWritten himage off bs j).trans (if_neg hj)⟩

end

/-! ### The operations in a context -/

section
variable {s : State} (halive : s.alive = true) (h : Option Handle) (off n : Nat) (bs : List Byte)
include halive

theorem exec_imgOk : exec (.imgOk h off n) s = .next (s.returning (.succeeded (s.imgOk h off n))) :=
  inContext_completes halive _ _

theorem exec_imgRead : exec (.imgRead h off n) s = .next (s.returning (.bytes (s.imgRead h off n))) :=
  inContext_completes halive _ _

theorem exec_imgWrite : exec (.imgWrite h off bs) s =
    .next ((s.imgWrite h off bs).2.returning (.succeeded (s.imgWrite h off bs).1)) :=
  inContext_completes halive _ _

/-- 44_sasi R184: a read out of range answers no bytes and changes nothing. -/
theorem exec_imgRead_of_imgOk_eq_false (hok : s.imgOk h off n = false) :
    exec (.imgRead h off n) s = .next { s with result := .bytes none } := by
  rw [exec_imgRead halive, State.imgRead_of_imgOk_eq_false hok]
  rfl

/-- 44_sasi R184: a write out of range fails and changes nothing. -/
theorem exec_imgWrite_of_imgOk_eq_false (hok : s.imgOk h off bs.length = false) :
    exec (.imgWrite h off bs) s = .next { s with result := .succeeded false } := by
  rw [exec_imgWrite halive, State.imgWrite_of_imgOk_eq_false hok]
  rfl

/-- 44_sasi R184: all three primitives fail where no image is named. -/
theorem exec_img_of_image?_eq_none (himage : s.image? h = none) :
    exec (.imgOk h off n) s = .next { s with result := .succeeded false } ∧
      exec (.imgRead h off n) s = .next { s with result := .bytes none } ∧
      exec (.imgWrite h off bs) s = .next { s with result := .succeeded false } := by
  have hok := State.imgOk_of_image?_eq_none himage off
  refine ⟨?_, exec_imgRead_of_imgOk_eq_false halive h off n (hok n),
    exec_imgWrite_of_imgOk_eq_false halive h off bs (hok _)⟩
  rw [exec_imgOk halive, hok]
  rfl

end

/-- Settles O44: the handle names an image, or the primitives fail; on an image its size decides. -/
theorem imagePrimitives : Obligations.ImagePrimitives := by
  intro s h off n bs halive
  refine ⟨fun k im hk himage => ?_, exec_img_of_image?_eq_none halive none off n bs rfl, fun k hk himage => ?_⟩
  · subst hk
    have himage' : s.image? (some k) = some im := himage
    have hok := State.imgOk_of_image? himage' off
    refine ⟨?_, fun hout => ?_, fun hfits => ?_, fun hout => ?_, fun hfits hwf => ?_⟩
    · rw [exec_imgOk halive, hok]
      rfl
    · exact exec_imgRead_of_imgOk_eq_false halive _ _ _ (by rw [hok, decide_eq_false (by omega)])
    · refine ⟨_, Memory.readRange_length im.bytes off n, fun j hj => Memory.readRange_getElem? _ _ hj, ?_⟩
      rw [exec_imgRead halive, State.imgRead_of_image? himage' hfits]
      rfl
    · exact exec_imgWrite_of_imgOk_eq_false halive _ _ _ (by rw [hok, decide_eq_false (by omega)])
    · obtain ⟨⟨im', hfind, hsize, hread⟩, hothers⟩ := State.imageWritten_spec himage hwf hfits
      refine ⟨(s.imageWritten k im off bs).returning (.succeeded true), im', ?_, rfl, hfind, hsize, hread, hothers⟩
      rw [exec_imgWrite halive, State.imgWrite_of_image? himage' hfits]
  · subst hk
    exact exec_img_of_image?_eq_none halive (some k) off n bs himage

end Sys2Proof.Machine
end

section
/-! Read and Write by what the handle of the addressed unit names, and O35 (44_sasi R171, R172). -/

namespace Sys2Proof.Machine

/-! ### The block buffer -/

/-- Byte `j` of a block buffer filled from a range of an image (44_sasi R171, R176). -/
theorem blockOfBytes_readRange (m : Memory) (off : Nat) (j : Fin 256) :
    (blockOfBytes (Memory.readRange m off 256))[j.val] = Memory.read m (off + j.val) := by
  rw [← Memory.readRange_getD m off 256 j.val j.isLt 0]
  simp [blockOfBytes]

/-! ### Read and Write once their fields are latched -/

/-- Read or Write by its direction, once the fields of the block are latched (44_sasi R171, R172). -/
def State.startTransfer (s : State) (rw : Bool) : State := if rw then s.startRead else s.startWrite

section
variable {s : State} (rw : Bool)

/-- 44_sasi R171, R172: without an image the command ends with the code of no image. -/
theorem State.startTransfer_of_none (h : s.unitImage = none) : s.startTransfer rw = s.failCommand errNoImage := by
  simp only [State.startTransfer, State.startRead, State.startWrite, h, Option.isNone_none, if_true, ite_self]

/-- 44_sasi R171, R172: a first block outside the image ends the command with an I/O error. -/
theorem State.startTransfer_of_outside (h : s.unitImage.isSome = true)
    (hout : s.imgOk s.unitImage s.sasi.offset 256 = false) :
    s.startTransfer rw = s.failCommand s.cfg.sasiErrIo := by
  have hpresent : s.unitImage.isNone ≠ true := by
    rw [← Option.not_isSome, h]
    decide
  simp only [State.startTransfer, State.startRead, State.startWrite, if_neg hpresent, hout,
    State.imgRead_of_imgOk_eq_false hout, Bool.false_eq_true, if_false, ite_self]

/-- 44_sasi R171, R172: a first block inside the image begins the Data phase; Read brings the block in. -/
theorem State.startTransfer_of_inside {im : Image} (h : s.image? s.unitImage = some im)
    (hfits : s.sasi.offset + 256 ≤ im.size) :
    s.startTransfer rw = s.withSasi { s.sasi with
      buf := if rw then blockOfBytes (Memory.readRange im.bytes s.sasi.offset 256) else s.sasi.buf
      phase := .data } := by
  have hpresent : s.unitImage.isNone ≠ true := by
    cases hunit : s.unitImage with
    | none => rw [hunit] at h; cases h
    | some k => simp
  cases rw with
  | false =>
    have hok : s.imgOk s.unitImage s.sasi.offset 256 = true := by
      rw [State.imgOk_of_image? h, decide_eq_true hfits]
    simp only [State.startTransfer, State.startWrite, if_neg hpresent, hok, Bool.false_eq_true, if_false, if_true]
  | true =>
    simp only [State.startTransfer, State.startRead, if_neg hpresent, State.imgRead_of_image? h hfits, if_true]

end

/-! ### The two operations -/

/-- 44_sasi R171, R172: both operations latch the same fields and then begin the transfer in their direction. -/
theorem exec_startTransfer {s : State} (halive : s.alive = true) {b : Cdb} {op : Byte} {rw : Bool} {i : Instr}
    {d : Sasi}
    (hi : op = 0x08 ∧ rw = true ∧ i = .sasiCmdRead b ∨ op = 0x0A ∧ rw = false ∧ i = .sasiCmdWrite b)
    (hd : d = { s.sasi with
      cmd := cmdOfBlock (b.block op), unit := b.unit, sector := b.sector.setWidth 32
      blocks := if b.blocks = 0 then 256 else b.blocks.setWidth 16, rw := rw, bufptr := 0, stat := 0x00 }) :
    exec i s = .next (((s.withSasi d).startTransfer rw).returning .none) := by
  have hlatched : (s.withBlock op b).withSasi ((s.withBlock op b).sasi.beginTransfer rw) = s.withSasi d := by
    rw [State.withBlock_eq, State.withSasi_sasi, Sasi.beginTransfer_eq rfl, hd]
    rfl
  rw [← hlatched]
  rcases hi with ⟨rfl, rfl, rfl⟩ | ⟨rfl, rfl, rfl⟩
  · exact inContext_completes halive _ _
  · exact inContext_completes halive _ _

/-- Settles O35: with the fields latched, the addressed unit's image and the place of the first block in it decide. -/
theorem sasiReadWriteCommands : Obligations.SasiReadWriteCommands := by
  intro s b op rw i h d halive hi hh hd
  have hexec := exec_startTransfer halive hi hd
  have hunit : (s.withSasi d).unitImage = h := by
    rw [hh, hd]
    rfl
  have hoffset : (s.withSasi d).sasi.offset = b.sector.toNat * 256 := by
    rw [State.withSasi_sasi, Sasi.offset, hd, BitVec.toNat_setWidth_of_le (by decide)]
  have hbuf : d.buf = s.sasi.buf := by rw [hd]
  refine ⟨fun hnone => ?_, fun hsome hout => ?_, fun k im hk himage hfits => ?_⟩
  · rw [hexec, State.startTransfer_of_none rw (hunit.trans hnone), State.failCommand_eq]
    rfl
  · rw [hexec, State.startTransfer_of_outside rw (hunit ▸ hsome) (by rw [hunit, hoffset]; exact hout),
      State.failCommand_eq]
    rfl
  · rw [State.startTransfer_of_inside rw (im := im) (by rw [hunit, hk]; exact himage) (by rw [hoffset]; exact hfits),
      hoffset] at hexec
    refine ⟨_, hexec, rfl, rfl, fun j => ?_⟩
    cases rw with
    | false => exact congrArg (·[j.val]) hbuf
    | true => exact blockOfBytes_readRange _ _ _

end Sys2Proof.Machine
end

section
/-! The bytes of the Data phase, and O38 and O39 (44_sasi R176, R177). -/

namespace Sys2Proof.Machine

/-! ### The buffer pointer -/

theorem Sasi.bufptr_succ_ne_of_lt {d : Sasi} (h : d.bufptr.toNat < 255) : d.bufptr + 1 ≠ 256 := by bv_omega

theorem Sasi.bufptr_succ_of_last {d : Sasi} (h : d.bufptr = 255) : d.bufptr + 1 = 256 := by
  rw [h]
  rfl

/-- 44_sasi R176: the byte returned is the one at the buffer pointer. -/
theorem Sasi.dataByte_of_toNat_eq {d : Sasi} {k : Nat} (hptr : d.bufptr.toNat = k) (hk : k < 256) :
    d.dataByte = d.buf[k] := by
  rw [Sasi.dataByte, hptr, Vector.getElem?_eq_getElem hk, Option.getD_some]

theorem Sasi.dataByte_of_last {d : Sasi} (h : d.bufptr = 255) : d.dataByte = d.buf[255] :=
  Sasi.dataByte_of_toNat_eq (by rw [h]; rfl) (by decide)

/-- `irq.pend` after one byte of the Data phase (44_sasi R182). -/
def State.pendPerByte (s : State) : BitVec 9 := if s.cfg.sasiIrqPerByte then s.pend ||| 1#9 else s.pend

/-- 44_sasi R176, R177, R182: a byte moves the pointer on, and requests source 0 where each byte does. -/
theorem State.byteMoved_eq (s : State) :
    s.byteMoved = { s with sasi := { s.sasi with bufptr := s.sasi.bufptr + 1 }, pend := s.pendPerByte } := by
  rw [State.byteMoved, State.requestPerByte, State.pendPerByte]
  cases hirq : s.cfg.sasiIrqPerByte with
  | false => simp only [State.withSasi_cfg, hirq, Bool.false_eq_true, if_false]; rfl
  | true => simp only [State.withSasi_cfg, hirq, if_true]; rfl

theorem State.byteMoved_bufptr (s : State) : s.byteMoved.sasi.bufptr = s.sasi.bufptr + 1 := by
  rw [State.byteMoved_eq]

/-! ### The end of a block read out (44_sasi R176) -/

section
variable {s : State}

theorem State.blockRead_of_none_left (h : s.sasi.blocks = 0) : s.blockRead = s.enterStatus := if_pos h

theorem State.blockRead_of_outside (h : s.sasi.blocks ≠ 0) (hout : s.imgOk s.unitImage s.sasi.offset 256 = false) :
    s.blockRead = s.failCommand s.cfg.sasiErrIo := by
  rw [State.blockRead, if_neg h, State.imgRead_of_imgOk_eq_false hout]

theorem State.blockRead_of_inside (h : s.sasi.blocks ≠ 0) {im : Image} (himage : s.image? s.unitImage = some im)
    (hfits : s.sasi.offset + 256 ≤ im.size) :
    s.blockRead =
      s.withSasi { s.sasi with buf := blockOfBytes (Memory.readRange im.bytes s.sasi.offset 256) } := by
  rw [State.blockRead, if_neg h, State.imgRead_of_image? himage hfits]

/-! ### `SASI.DATAIN` by the buffer pointer -/

theorem State.datain_of_lt (h : s.sasi.bufptr.toNat < 255) :
    s.datain = { s with sasi := { s.sasi with bufptr := s.sasi.bufptr + 1 }, pend := s.pendPerByte } := by
  rw [State.datain, State.byteMoved_bufptr, if_neg (Sasi.bufptr_succ_ne_of_lt h), State.byteMoved_eq]

/-- The state when the last byte of a block is out: the pointer back, the next sector addressed (44_sasi R176). -/
def State.blockEmptied (s : State) : State :=
  { s with
    sasi := { s.sasi with bufptr := 0, blocks := s.sasi.blocksLess, sector := s.sasi.sector + 1 }
    pend := s.pendPerByte }

theorem State.datain_of_last (h : s.sasi.bufptr = 255) : s.datain = s.blockEmptied.blockRead := by
  rw [State.datain, State.byteMoved_bufptr, if_pos (Sasi.bufptr_succ_of_last h), State.byteMoved_eq]
  rfl

end

/-- 00_scope R6: with blocks to go the count is one less. -/
theorem Sasi.blocksLess_of_ne_zero {d : Sasi} (h : d.blocks ≠ 0) : d.blocksLess = d.blocks - 1 := if_neg h

/-- Settles O38: the pointer decides whether the byte ends its block, and then the blocks left and the place of the
next one decide what follows. -/
theorem sasiDataIn : Obligations.SasiDataIn := by
  rintro s p h halive hp rfl
  obtain rfl : p = s.pendPerByte := hp
  have hexec := exec_sasiDatain halive
  refine ⟨s.blockEmptied.sasi, rfl, Sasi.blocksLess_of_ne_zero, fun k hptr => ?_, fun hptr hdone => ?_,
    fun hptr hmore hout => ?_, fun k im hptr hmore hk himage hfits => ?_⟩
  · rw [hexec, State.datain_of_lt (hptr ▸ k.isLt), Sasi.dataByte_of_toNat_eq hptr (by omega)]
    rfl
  · rw [hexec, State.datain_of_last hptr, State.blockRead_of_none_left hdone, Sasi.dataByte_of_last hptr]
    rfl
  · rw [hexec, State.datain_of_last hptr, State.blockRead_of_outside hmore hout, Sasi.dataByte_of_last hptr]
    rfl
  · rw [State.datain_of_last hptr, State.blockRead_of_inside hmore (im := im)
      ((congrArg s.image? hk).trans himage) hfits, Sasi.dataByte_of_last hptr] at hexec
    exact ⟨_, hexec, rfl, blockOfBytes_readRange _ _⟩

/-! ### The end of a block written (44_sasi R177) -/

section
variable {s : State}

theorem State.blockWritten_of_none_left (h : s.sasi.blocks = 0) : s.blockWritten = s.enterStatus := if_pos h

theorem State.blockWritten_of_image? (h : s.sasi.blocks ≠ 0) {im : Image} (himage : s.image? s.unitImage = some im) :
    s.blockWritten = if s.sasi.offset + 256 ≤ im.size then s else s.failCommand s.cfg.sasiErrIo := by
  simp only [State.blockWritten, if_neg h, State.imgOk_of_image? himage, decide_eq_true_eq]

theorem State.flushed_flush_of_outside (h : s.imgOk s.unitImage s.sasi.offset 256 = false) :
    State.flushed s.flush = s.failCommand s.cfg.sasiErrIo := by
  have hlength : s.sasi.buf.toList.length = 256 := Vector.length_toList
  rw [State.flush, State.imgWrite_of_imgOk_eq_false (by rw [hlength]; exact h)]
  rfl

/-- The state once the block is in its image and the next sector is addressed (44_sasi R177). -/
def State.blockStored (s : State) (k : Handle) (im : Image) : State :=
  (s.imageWritten k im s.sasi.offset s.sasi.buf.toList).withSasi s.sasi.nextBlock

theorem State.flushed_flush_of_inside {k : Handle} {im : Image} (hk : s.unitImage = some k)
    (himage : s.image? (some k) = some im) (hfits : s.sasi.offset + 256 ≤ im.size) :
    State.flushed s.flush = (s.blockStored k im).blockWritten := by
  have hlength : s.sasi.buf.toList.length = 256 := Vector.length_toList
  rw [State.flush, hk, State.imgWrite_of_image? himage (by rw [hlength]; exact hfits)]
  rfl

/-! ### `SASI.DATAOUT` by the buffer pointer -/

theorem Sasi.setIfInBounds_buf {d : Sasi} {k : Nat} (hptr : d.bufptr.toNat = k) (hk : k < 256) (v : Byte) :
    d.buf.setIfInBounds d.bufptr.toNat v = d.buf.set k v := by
  subst hptr
  simp [Vector.setIfInBounds, Vector.set, Array.setIfInBounds, hk]

theorem State.bufferByte_bufptr (s : State) (v : Byte) : (s.bufferByte v).sasi.bufptr = s.sasi.bufptr := rfl

theorem State.dataout_of_lt {k : Nat} (hptr : s.sasi.bufptr.toNat = k) (hk : k < 255) (v : Byte) :
    s.dataout v = { s with
      sasi := { s.sasi with buf := s.sasi.buf.set k v, bufptr := s.sasi.bufptr + 1 }, pend := s.pendPerByte } := by
  rw [State.dataout, State.byteMoved_bufptr, State.bufferByte_bufptr, if_neg (Sasi.bufptr_succ_ne_of_lt (hptr ▸ hk)),
    State.byteMoved_eq, State.bufferByte, Sasi.setIfInBounds_buf hptr (by omega)]
  rfl

/-- The state when the last byte of a block is in the buffer, before the block goes to its image (44_sasi R177). -/
def State.blockFilled (s : State) (v : Byte) : State :=
  { s with sasi := { s.sasi with buf := s.sasi.buf.set 255 v, bufptr := 0 }, pend := s.pendPerByte }

theorem State.dataout_of_last (hptr : s.sasi.bufptr = 255) (v : Byte) :
    s.dataout v = State.flushed (s.blockFilled v).flush := by
  rw [State.dataout, State.byteMoved_bufptr, State.bufferByte_bufptr, if_pos (Sasi.bufptr_succ_of_last hptr),
    State.byteMoved_eq, State.bufferByte, Sasi.setIfInBounds_buf (k := 255) (by rw [hptr]; rfl) (by decide)]
  rfl

end

/-- 44_sasi R177: what a block written ends in: with blocks to go, the next one's place in the image decides. -/
theorem State.blockWritten_spec {s : State} {im : Image} (himage : s.image? s.unitImage = some im) :
    (s.sasi.blocks = 0 ∨ im.size < s.sasi.offset + 256 →
      s.blockWritten.sasi.phase = .status ∧ s.blockWritten.pend = s.pend ||| 1#9) ∧
    (s.sasi.blocks ≠ 0 → s.sasi.offset + 256 ≤ im.size →
      s.blockWritten.sasi.phase = s.sasi.phase ∧ s.blockWritten.pend = s.pend) ∧
    s.blockWritten.sasi = { s.sasi with
      phase := s.blockWritten.sasi.phase
      stat := if s.sasi.blocks ≠ 0 ∧ im.size < s.sasi.offset + 256 then 0x02 else s.sasi.stat
      error := if s.sasi.blocks ≠ 0 ∧ im.size < s.sasi.offset + 256 then s.cfg.sasiErrIo else s.sasi.error } := by
  by_cases hdone : s.sasi.blocks = 0
  · rw [State.blockWritten_of_none_left hdone, if_neg (fun h => h.1 hdone), if_neg (fun h => h.1 hdone)]
    exact ⟨fun _ => ⟨rfl, rfl⟩, fun hmore => absurd hdone hmore, rfl⟩
  · rw [State.blockWritten_of_image? hdone himage]
    by_cases hfits : s.sasi.offset + 256 ≤ im.size
    · have hin : ¬(s.sasi.blocks ≠ 0 ∧ im.size < s.sasi.offset + 256) := fun h => by omega
      rw [if_pos hfits, if_neg hin, if_neg hin]
      exact ⟨fun hend => absurd hend (by rintro (h | h) <;> [exact hdone h; omega]), fun _ _ => ⟨rfl, rfl⟩, rfl⟩
    · have hout : s.sasi.blocks ≠ 0 ∧ im.size < s.sasi.offset + 256 := ⟨hdone, by omega⟩
      rw [if_neg hfits, if_pos hout, if_pos hout]
      exact ⟨fun _ => ⟨rfl, rfl⟩, fun _ hin => absurd hin hfits, rfl⟩

/-- Settles O39: the pointer decides whether the byte ends its block; the block then goes to its image, or fails, and
what it ends in is `blockWritten_spec`. -/
theorem sasiDataOut : Obligations.SasiDataOut := by
  rintro s v p h halive hp rfl
  obtain rfl : p = s.pendPerByte := hp
  have hexec := exec_sasiDataout halive v
  refine ⟨s.sasi.blocksLess, Sasi.blocksLess_of_ne_zero, fun k hptr => ?_, fun hptr hout => ?_,
    fun k im hptr hk himage hwf hfits => ?_⟩
  · rw [hexec, State.dataout_of_lt hptr k.isLt]
    rfl
  · rw [hexec, State.dataout_of_last hptr, State.flushed_flush_of_outside (s := s.blockFilled v) hout,
      State.failCommand_eq]
    rfl
  · have hlength : (s.sasi.buf.set 255 v).toList.length = 256 := Vector.length_toList
    rw [State.dataout_of_last hptr, State.flushed_flush_of_inside (s := s.blockFilled v) (im := im) hk himage hfits]
      at hexec
    obtain ⟨hown, hothers⟩ := State.imageWritten_spec (s := s.blockFilled v) himage hwf
      (bs := (s.sasi.buf.set 255 v).toList) (by rw [hlength]; exact hfits)
    rw [hlength] at hown
    obtain ⟨im', hfind, hsize, hread⟩ := hown
    obtain ⟨hend, hgoes, hsasi⟩ := State.blockWritten_spec (s := (s.blockFilled v).blockStored k im) (im := im')
      ((congrArg (State.image? _) hk).trans hfind)
    obtain ⟨d, q, hwritten⟩ := OnlySasi.blockWritten ((s.blockFilled v).blockStored k im)
    rw [hsize] at hend hgoes hsasi
    rw [hwritten] at hexec hend hgoes hsasi
    exact ⟨_, hexec, rfl, ⟨im', hfind, hsize, hread⟩, hothers, hend, hgoes, hsasi⟩

end Sys2Proof.Machine
end

section
/-! The phase transitions a bus transaction can make, and O42 (44_sasi R185). -/

namespace Sys2Proof.Machine

/-! ### The table -/

/-- The phase of `t` is one the table lists after the phase of `s` (44_sasi R185). -/
def PhaseFollows (s t : State) : Prop := t.sasi.phase ∈ Phase.mayFollow s.sasi.phase

theorem PhaseFollows.of_phase_eq {s t : State} (h : t.sasi.phase = s.sasi.phase) : PhaseFollows s t := by
  rw [PhaseFollows, h]
  cases s.sasi.phase <;> decide

theorem PhaseFollows.of_sasi_eq {s t : State} (h : t.sasi = s.sasi) : PhaseFollows s t := .of_phase_eq (by rw [h])

theorem PhaseFollows.of_mem {s t : State} {p q : Phase} (hs : s.sasi.phase = p) (ht : t.sasi.phase = q)
    (h : q ∈ Phase.mayFollow p) : PhaseFollows s t := by
  rwa [PhaseFollows, hs, ht]

theorem PhaseFollows.refl (s : State) : PhaseFollows s s := .of_phase_eq rfl

/-- 44_sasi R163, R185: the reset port leads from any phase to BusFree. -/
theorem PhaseFollows.sasiReset (s : State) : PhaseFollows s s.sasiReset :=
  .of_mem (q := .busFree) rfl rfl (by cases s.sasi.phase <;> decide)

/-! ### Operations that keep the phase or end in Status -/

/-- The phase is kept, or is Status: what the bytes of a phase do, and what ends it (44_sasi R182). -/
def KeepsOrEndsPhase (s t : State) : Prop := t.sasi.phase = s.sasi.phase ∨ t.sasi.phase = .status

theorem KeepsOrEndsPhase.trans {s t u : State} (h : KeepsOrEndsPhase s t) (k : KeepsOrEndsPhase t u) :
    KeepsOrEndsPhase s u := by
  rcases k with hkept | hended
  · rwa [KeepsOrEndsPhase, hkept]
  · exact .inr hended

theorem KeepsOrEndsPhase.follows {s t : State} (h : KeepsOrEndsPhase s t) {p : Phase} (hphase : s.sasi.phase = p)
    (hlists : .status ∈ Phase.mayFollow p) : PhaseFollows s t := by
  rcases h with hkept | hended
  · exact .of_phase_eq hkept
  · exact .of_mem hphase hended hlists

theorem KeepsOrEndsPhase.byteMoved (s : State) : KeepsOrEndsPhase s s.byteMoved := .inl (by rw [State.byteMoved_eq])

theorem KeepsOrEndsPhase.violate (s : State) : KeepsOrEndsPhase s s.violate := .inr rfl

theorem KeepsOrEndsPhase.blockRead (s : State) : KeepsOrEndsPhase s s.blockRead := by
  unfold State.blockRead
  split
  · exact .inr rfl
  · cases s.imgRead s.unitImage s.sasi.offset 256 with
    | none => exact .inr rfl
    | some bs => exact .inl rfl

theorem KeepsOrEndsPhase.datain (s : State) : KeepsOrEndsPhase s s.datain := by
  unfold State.datain
  split
  · exact (KeepsOrEndsPhase.byteMoved s).trans (KeepsOrEndsPhase.blockRead (s.byteMoved.withSasi _))
  · exact .byteMoved s

theorem KeepsOrEndsPhase.blockWritten (s : State) : KeepsOrEndsPhase s s.blockWritten := by
  unfold State.blockWritten
  split
  · exact .inr rfl
  · split
    · exact .inl rfl
    · exact .inr rfl

theorem KeepsOrEndsPhase.imgWrite (s : State) (h : Option Handle) (off : Nat) (bs : List Byte) :
    KeepsOrEndsPhase s (s.imgWrite h off bs).2 := by
  rcases s.imgWrite_spec h off bs with ⟨_, hwrite⟩ | ⟨_, _, _, _, _, _, hwrite⟩
  · exact .inl (by rw [hwrite])
  · exact .inl (by rw [hwrite])

theorem KeepsOrEndsPhase.flushed (r : Bool × State) : KeepsOrEndsPhase r.2 (State.flushed r) := by
  unfold State.flushed
  split
  · exact KeepsOrEndsPhase.blockWritten (r.2.withSasi r.2.sasi.nextBlock)
  · exact .inr rfl

theorem KeepsOrEndsPhase.nextBlockOut (s : State) : KeepsOrEndsPhase s s.nextBlockOut :=
  KeepsOrEndsPhase.trans (t := (s.withSasi s.sasi.rewound).flush.2) (.imgWrite (s.withSasi s.sasi.rewound) _ _ _)
    (.flushed _)

theorem KeepsOrEndsPhase.dataout (s : State) (v : Byte) : KeepsOrEndsPhase s (s.dataout v) := by
  have hmoved : KeepsOrEndsPhase s (s.bufferByte v).byteMoved := KeepsOrEndsPhase.byteMoved (s.bufferByte v)
  unfold State.dataout
  split
  · exact hmoved.trans (.nextBlockOut _)
  · exact hmoved

theorem KeepsOrEndsPhase.sensebyte (s : State) : KeepsOrEndsPhase s s.sensebyte := by
  unfold State.sensebyte
  dsimp only
  split
  · exact .inr rfl
  · exact .inl rfl

theorem KeepsOrEndsPhase.vendorbyte (s : State) : KeepsOrEndsPhase s s.vendorbyte := by
  unfold State.vendorbyte
  dsimp only
  split
  · exact .inr rfl
  · exact .inl rfl

/-! ### Commands -/

theorem State.testReady_phase (s : State) : s.testReady.sasi.phase = .status := by
  unfold State.testReady
  split <;> rfl

theorem State.recalibrate_phase (s : State) : s.recalibrate.sasi.phase = .status := by
  unfold State.recalibrate
  split <;> rfl

/-- 44_sasi R171, R172: Read and Write lead to the Data phase or to Status. -/
theorem State.startTransfer_phase (s : State) (rw : Bool) :
    (s.startTransfer rw).sasi.phase = .data ∨ (s.startTransfer rw).sasi.phase = .status := by
  cases hunit : s.unitImage with
  | none => exact .inr (by rw [State.startTransfer_of_none rw hunit, State.failCommand_eq])
  | some k =>
    cases hok : s.imgOk s.unitImage s.sasi.offset 256 with
    | false =>
      exact .inr (by rw [State.startTransfer_of_outside rw (by rw [hunit]; rfl) hok, State.failCommand_eq])
    | true =>
      cases himage : s.image? s.unitImage with
      | none => cases hok.symm.trans (State.imgOk_of_image?_eq_none himage _ _)
      | some im =>
        rw [State.imgOk_of_image? himage, decide_eq_true_eq] at hok
        exact .inl (by rw [State.startTransfer_of_inside rw himage hok]; rfl)

/-- 44_sasi R166, R185: a command leads to one of the phases listed after Command. -/
theorem State.runCommand_phase (s : State) (op : CmdOp) :
    (s.runCommand op).sasi.phase ∈ Phase.mayFollow .command := by
  have hstatus {p : Phase} (h : p = .status) : p ∈ Phase.mayFollow .command := by rw [h]; decide
  have htransfer (d : Sasi) (rw : Bool) :
      ((s.withSasi d).startTransfer rw).sasi.phase ∈ Phase.mayFollow .command := by
    rcases (s.withSasi d).startTransfer_phase rw with hdata | hended
    · rw [hdata]; decide
    · exact hstatus hended
  cases op with
  | testReady => exact hstatus s.testReady_phase
  | recalibrate => exact hstatus s.recalibrate_phase
  | seek => exact hstatus s.testReady_phase
  | format | unsupported => exact hstatus rfl
  | requestSense => exact (by decide : Phase.senseStatus ∈ Phase.mayFollow .command)
  | vendorC2 => exact (by decide : Phase.vendorInit ∈ Phase.mayFollow .command)
  | read => exact htransfer _ true
  | write => exact htransfer _ false

theorem PhaseFollows.cmdbyte {s : State} (h : s.sasi.phase = .command) (v : Byte) : PhaseFollows s (s.cmdbyte v) := by
  unfold State.cmdbyte
  dsimp only
  split
  · rw [PhaseFollows, h]
    exact State.runCommand_phase _ _
  · exact .of_phase_eq rfl

/-! ### Ports -/

theorem PhaseFollows.sasiSelect (s : State) (v : Byte) : PhaseFollows s (s.sasiSelect v) := by
  by_cases hphase : s.sasi.phase = .busFree
  · cases hbit : lowestBit v with
    | none => exact .of_sasi_eq (by rw [State.sasiSelect_of_ignored (.inr hbit)])
    | some d =>
      rw [State.sasiSelect_of_device hphase hbit]
      split
      · exact .of_mem (q := .selection) hphase rfl (by decide)
      · exact .refl s
  · exact .of_sasi_eq (by rw [State.sasiSelect_of_ignored (.inl hphase)])

theorem PhaseFollows.sasiAcksel (s : State) : PhaseFollows s s.sasiAcksel := by
  unfold State.sasiAcksel
  split
  next hphase => exact .of_mem (q := .command) hphase rfl (by decide)
  next => exact .refl s

/-- 44_sasi R160, R185: a read of the data port, by the phase it finds. -/
theorem PhaseFollows.sasiDataRd (s : State) : PhaseFollows s s.sasiDataRd.2 := by
  unfold State.sasiDataRd
  cases hphase : s.sasi.phase with
  | busFree | selection => exact .refl s
  | command | vendorInit => exact (KeepsOrEndsPhase.violate s).follows hphase (by decide)
  | senseStatus => exact (KeepsOrEndsPhase.sensebyte s).follows hphase (by decide)
  | data =>
    cases s.sasi.rw with
    | false => exact (KeepsOrEndsPhase.violate s).follows hphase (by decide)
    | true => exact (KeepsOrEndsPhase.datain s).follows hphase (by decide)
  | status => exact .of_mem (q := .message) hphase rfl (by decide)
  | message => exact .of_mem (q := .busFree) hphase rfl (by decide)

/-- 44_sasi R160, R185: a write of the data port, by the phase it finds. -/
theorem PhaseFollows.sasiDataWr (s : State) (v : Byte) : PhaseFollows s (s.sasiDataWr v) := by
  unfold State.sasiDataWr
  cases hphase : s.sasi.phase with
  | busFree | selection | status | message => exact .refl s
  | command => exact .cmdbyte hphase v
  | vendorInit => exact (KeepsOrEndsPhase.vendorbyte s).follows hphase (by decide)
  | senseStatus => exact (KeepsOrEndsPhase.violate s).follows hphase (by decide)
  | data =>
    cases s.sasi.rw with
    | false => exact (KeepsOrEndsPhase.dataout s v).follows hphase (by decide)
    | true => exact (KeepsOrEndsPhase.violate s).follows hphase (by decide)

/-! ### Transactions -/

theorem EventFrame.sasi {s t : State} (h : EventFrame s t) : t.sasi = s.sasi := by rw [h.frame]

theorem State.rtcRead_sasi (s : State) (a : Addr) : (s.rtcRead a).2.sasi = s.sasi := by
  unfold State.rtcRead
  split <;> rfl

theorem State.ramWrite_sasi (s : State) (a : Addr) (v : Byte) : (s.ramWrite a v).sasi = s.sasi := by
  unfold State.ramWrite
  split <;> rfl

theorem State.sramWrite_sasi (s : State) (a : Addr) (v : Byte) : (s.sramWrite a v).sasi = s.sasi := by
  unfold State.sramWrite
  split <;> rfl

/-- 40_bus R90: of the read ports only the data port of the controller changes its phase. -/
theorem PhaseFollows.busRd8 (s : State) (a : Addr) : PhaseFollows s (s.busRd8 a).2 := by
  unfold State.busRd8
  split
  case h_1 => exact .sasiDataRd s
  case h_3 => exact .of_sasi_eq (s.rtcRead_sasi a)
  case h_8 => exact .of_sasi_eq (EventFrame.extRead s a).sasi
  all_goals exact .refl s

/-- 40_bus R91: of the write ports only the controller's own change its phase. -/
theorem PhaseFollows.busWr8 (s : State) (a : Addr) (v : Byte) : PhaseFollows s (s.busWr8 a v) := by
  unfold State.busWr8
  split
  · exact .sasiDataWr s v
  · exact .sasiAcksel s
  · exact .sasiReset s
  · exact .sasiSelect s v
  · exact .of_sasi_eq rfl
  · exact .of_sasi_eq rfl
  · exact .of_sasi_eq (s.ramWrite_sasi a v)
  · exact .of_sasi_eq (s.sramWrite_sasi a v)
  · exact .of_sasi_eq (EventFrame.extWrite s a v).sasi
  all_goals exact .refl s

theorem PhaseFollows.answer {s t : State} (h : PhaseFollows s t) (r : Result) :
    NextMeets (PhaseFollows s) (completes t r) :=
  .completes h

/-- Settles O42: a transaction answers the state of its port, whose phase the table lists. -/
theorem sasiPhaseTable : Obligations.SasiPhaseTable := by
  rintro s t a v (hrd | hwr)
  · exact NextMeets.inContext ((PhaseFollows.busRd8 s a).answer (.byte (s.busRd8 a).1)) t hrd
  · exact NextMeets.inContext ((PhaseFollows.busWr8 s a v).answer .none) t hwr

end Sys2Proof.Machine
end

section
/-! A Read from its first data byte to the free bus, and O43 (44_sasi R187). -/

namespace Sys2Proof.Machine

/-- The state after one read of the data port in the Data-Read phase (44_sasi R176). -/
def State.dataRead (s : State) : State := s.datain.returning (.byte s.sasi.dataByte)

/-- `x` is a state of the Data phase of a Read of `n` blocks of the image `im` from sector `first` on, `i` bytes in; the
status byte stored is `stat` (44_sasi R187). -/
structure ReadState (im : Image) (first n : Nat) (stat : Byte) (i : Nat) (x : State) : Prop where
  alive : x.alive = true
  image : x.image? x.unitImage = some im
  phase : x.sasi.phase = .data
  stat : x.sasi.stat = stat
  bufptr : x.sasi.bufptr.toNat = i % 256
  sector : x.sasi.sector.toNat = first + i / 256
  blocks : x.sasi.blocks.toNat + i / 256 = n
  buf : ∀ j : Fin 256, x.sasi.buf[j.val] = Memory.read im.bytes (x.sasi.sector.toNat * 256 + j.val)

namespace ReadState

variable {im : Image} {first n i : Nat} {stat : Byte} {x : State}

/-- 44_sasi R187: the byte read next is the image's next one. -/
theorem dataByte (h : ReadState im first n stat i x) :
    x.sasi.dataByte = Memory.read im.bytes (first * 256 + i) := by
  have hlt : i % 256 < 256 := Nat.mod_lt _ (by decide)
  have hplace : x.sasi.sector.toNat * 256 + i % 256 = first * 256 + i := by
    have := h.sector
    omega
  rw [Sasi.dataByte_of_toNat_eq h.bufptr hlt, ← hplace]
  exact h.buf ⟨i % 256, hlt⟩

theorem bufptr_of_last (h : ReadState im first n stat i x) (hi : i % 256 = 255) : x.sasi.bufptr = 255 :=
  BitVec.eq_of_toNat_eq (h.bufptr.trans hi)

/-- 44_sasi R176: the count of blocks at the end of a block. -/
theorem blocksLess (h : ReadState im first n stat i x) (hi : i < 256 * n) :
    x.sasi.blocksLess.toNat + 1 = x.sasi.blocks.toNat := by
  have hblocks := h.blocks
  have hpos : x.sasi.blocks ≠ 0 := by
    intro hzero
    rw [hzero] at hblocks
    have : i / 256 = n := (Nat.zero_add _).symm.trans hblocks
    omega
  rw [Sasi.blocksLess_of_ne_zero hpos]
  bv_omega

/-- 44_sasi R176: within a block only the pointer moves on. -/
theorem within_block (h : ReadState im first n stat i x) (hi : i % 256 < 255) :
    ReadState im first n stat (i + 1) x.dataRead := by
  have hptr : x.sasi.bufptr.toNat < 255 := h.bufptr ▸ hi
  have hnext : (x.sasi.bufptr + 1).toNat = (i + 1) % 256 := by
    have := h.bufptr
    bv_omega
  have hblock : (i + 1) / 256 = i / 256 := by omega
  rw [State.dataRead, State.datain_of_lt hptr]
  exact ⟨h.alive, h.image, h.phase, h.stat, hnext, hblock ▸ h.sector, hblock ▸ h.blocks, h.buf⟩

/-- 44_sasi R176: the last byte of a block brings the next block in. -/
theorem next_block (h : ReadState im first n stat i x) (hi : i % 256 = 255) (hmore : i + 1 < 256 * n)
    (hfits : (first + n) * 256 ≤ im.size) (hsectors : first + n < 2 ^ 32) :
    ReadState im first n stat (i + 1) x.dataRead := by
  have hblock : (i + 1) / 256 = i / 256 + 1 := by omega
  have hptr : 0 = (i + 1) % 256 := by omega
  have hcount := h.blocksLess (by omega)
  have hblocks : x.sasi.blocksLess.toNat + (i + 1) / 256 = n := by
    have := h.blocks
    omega
  have hleft : x.blockEmptied.sasi.blocks ≠ 0 := by
    intro hzero
    have : x.sasi.blocksLess.toNat = 0 := congrArg BitVec.toNat hzero
    omega
  have hsector : (x.sasi.sector + 1).toNat = first + (i + 1) / 256 := by
    have := h.sector
    bv_omega
  have hinside : x.blockEmptied.sasi.offset + 256 ≤ im.size := by
    have : x.blockEmptied.sasi.offset = (x.sasi.sector + 1).toNat * 256 := rfl
    omega
  rw [State.dataRead, State.datain_of_last (h.bufptr_of_last hi), State.blockRead_of_inside hleft h.image hinside]
  exact ⟨h.alive, h.image, h.phase, h.stat, hptr, hsector, hblocks, blockOfBytes_readRange _ _⟩

/-- 44_sasi R176: the last byte of the last block ends in Status, the status byte as it was. -/
theorem last_byte (h : ReadState im first n stat i x) (hlast : i + 1 = 256 * n) :
    x.dataRead.alive = true ∧ x.dataRead.sasi.phase = .status ∧ x.dataRead.sasi.stat = stat := by
  have hcount := h.blocksLess (by omega)
  have hdone : x.blockEmptied.sasi.blocks = 0 := by
    refine BitVec.eq_of_toNat_eq (show x.sasi.blocksLess.toNat = 0 from ?_)
    have := h.blocks
    omega
  rw [State.dataRead, State.datain_of_last (h.bufptr_of_last (by omega)), State.blockRead_of_none_left hdone]
  exact ⟨h.alive, rfl, h.stat⟩

/-- The run of a Read, byte by byte to its last (44_sasi R187). -/
theorem iterate_dataRead (h : ReadState im first n stat 0 x) (hfits : (first + n) * 256 ≤ im.size)
    (hsectors : first + n < 2 ^ 32) : ∀ i, i < 256 * n → ReadState im first n stat i (State.dataRead^[i] x) := by
  intro i
  induction i with
  | zero => exact fun _ => h
  | succ i ih =>
    intro hi
    have hstate := ih (by omega)
    rw [Function.iterate_succ_apply']
    by_cases hwithin : i % 256 < 255
    · exact hstate.within_block hwithin
    · exact hstate.next_block (by omega) hi hfits hsectors

end ReadState

/-- Settles O43: the states of the run are the iterates of one data read; each but the last is a `ReadState`, and the
last leads through Status and Message to the free bus. -/
theorem sasiReadRunsToTheEnd : Obligations.SasiReadRunsToTheEnd := by
  intro s k im n halive hpos hphase hptr hblocks hk himage hfits hsectors hbuf
  have hstart : ReadState im s.sasi.sector.toNat n s.sasi.stat 0 s :=
    ⟨halive, (congrArg s.image? hk).trans himage, hphase, rfl, by rw [hptr]; rfl, rfl, hblocks, hbuf⟩
  have hrun := hstart.iterate_dataRead hfits hsectors
  have hsucc (i : Nat) : State.dataRead^[i + 1] s = (State.dataRead^[i] s).dataRead :=
    Function.iterate_succ_apply' _ _ _
  obtain ⟨m, hm⟩ : ∃ m, 256 * n = m + 1 := ⟨256 * n - 1, by omega⟩
  obtain ⟨halive', hstatus, hstat⟩ := (hrun m (by omega)).last_byte hm.symm
  rw [← hsucc, ← hm] at halive' hstatus hstat
  refine ⟨fun i => State.dataRead^[i] s, _, _, rfl, fun i hi => ⟨(hrun i hi).phase, ?_, ?_⟩, hstatus,
    exec_sasiStatusbyte halive', congrArg Result.byte hstat, rfl, exec_sasiMsgbyte halive', rfl, rfl⟩
  · dsimp only
    rw [hsucc]
    exact exec_sasiDatain (hrun i hi).alive
  · dsimp only
    rw [hsucc]
    exact congrArg Result.byte (hrun i hi).dataByte

end Sys2Proof.Machine
end

section
/-! A tick of the real-time clock: what each timer keeps and whether it requests the interrupt, and O55
(45_peripheral R212). -/

namespace Sys2Proof.Machine

theorem advanced_of_lt {acc : BitVec 32} {used : Nat} (h : acc.toNat + used < 2 ^ 32) :
    advanced acc used = acc.toNat + used := by
  rw [advanced, BitVec.toNat_ofNat, Nat.mod_eq_of_lt h]

/-- 45_peripheral R212: a timer keeps the remainder of its period, and pulses where a period has passed. -/
theorem timerTick_of_lt {acc : BitVec 32} {used : Nat} (h : acc.toNat + used < 2 ^ 32) (period : Nat) :
    (timerTick acc used period).1.toNat = (acc.toNat + used) % period ∧
      (timerTick acc used period).2 = decide (period ≤ acc.toNat + used) := by
  have hfits : (acc.toNat + used) % period < 2 ^ 32 := (Nat.mod_le _ _).trans_lt h
  rw [timerTick, advanced_of_lt h]
  exact ⟨Nat.mod_eq_of_lt hfits, rfl⟩

/-- Whether a tick requests `SRC_RTC`: a timer pulses, and its bit of register 15 is clear (45_peripheral R212). -/
def State.rtcPulses (s : State) (used : Nat) : Bool :=
  ((timerTick s.rtc.ta used s.cfg.rtcPeriodA).2 && !s.rtc.r15.getLsbD 3) ||
    ((timerTick s.rtc.tb used s.cfg.rtcPeriodB).2 && !s.rtc.r15.getLsbD 2)

/-- 45_peripheral R212: a tick of the RTC, field by field. -/
theorem State.rtcTick_eq (s : State) (used : Nat) :
    s.rtcTick used = { s with
      rtc := { s.rtc with
        ta := (timerTick s.rtc.ta used s.cfg.rtcPeriodA).1
        tb := (timerTick s.rtc.tb used s.cfg.rtcPeriodB).1 }
      pend := setPendingIf s.pend (s.rtcPulses used) .rtc } := by
  unfold State.rtcTick State.rtcPulses setPendingIf
  dsimp only
  split <;> rfl

/-- Settles O55: while the sums fit, each timer keeps its remainder and pulses at its period; the request is made where
either timer's pulse is let through. -/
theorem rtcTimersPulse : Obligations.RtcTimersPulse := by
  intro s used halive _ _ hfitsA hfitsB
  obtain ⟨hta, hpulseA⟩ := timerTick_of_lt hfitsA s.cfg.rtcPeriodA
  obtain ⟨htb, hpulseB⟩ := timerTick_of_lt hfitsB s.cfg.rtcPeriodB
  rw [exec_rtcTick halive, State.rtcTick_eq]
  refine ⟨_, rfl, rfl, hta, htb, fun src => ?_⟩
  rw [← hpulseA, ← hpulseB]
  exact pending_setPendingIf _ _ _ _

end Sys2Proof.Machine
end

section
/-! The static RAM and its write-enable key, on the port and on the bus, and O49 (45_peripheral R215 to R218). -/

namespace Sys2Proof.Machine

/-- The row of the static RAM in the default map (20_memory R47). -/
def sramRow : Region := ⟨0xED0000, 0xED3FFF, .sram⟩

/-- 20_memory R47: the addresses of the static RAM's window are in its row, whatever RAM is fitted. -/
theorem regionAt_defaultMap_sram {n : Nat} (hle : n ≤ 0xC00000) {a : Addr} (hlo : 0xED0000 ≤ a.toNat)
    (hhi : a.toNat ≤ 0xED3FFF) : regionAt (defaultMap n) a = some sramRow :=
  regionAt_defaultMap_above hle (by decide) hlo hhi

/-- An address is between the bounds of its region's row. -/
theorem mem_bounds_of_regionAt {map : List Region} {a : Addr} {r : Region} (h : regionAt map a = some r) :
    r.lo ≤ a.toNat ∧ a.toNat ≤ r.hi := by
  unfold regionAt at h
  simpa using List.find?_some h

section
variable {map : List Region} {a : Addr} (h : regionAt map a = some sramRow)
include h

theorem offsetAt_sram : offsetAt map a = a.toNat - 0xED0000 := by
  rw [offsetAt_of_regionAt h, sramRow]

/-- 20_memory R50: the row holds as many addresses as the static RAM has bytes. -/
theorem offsetAt_sram_lt : offsetAt map a < sramSize := by
  have hhi : a.toNat ≤ 0xED3FFF := (mem_bounds_of_regionAt h).2
  rw [offsetAt_sram h, sramSize]
  omega

end

/-- 45_peripheral R218: with the write enable clear a write is dropped. -/
theorem State.sramWrite_of_disabled {s : State} (hwe : s.sramWe = false) (a : Addr) (v : Byte) :
    s.sramWrite a v = s := if_neg (by simp [hwe])

theorem exec_sramWr {s : State} (halive : s.alive = true) (a : Addr) (v : Byte) :
    exec (.sramWr a v) s = .next ((s.sramWrite a v).returning .none) := inContext_completes halive _ _

/-- The state a write leaves that is not dropped (45_peripheral R218). -/
def State.sramWritten (s : State) (a : Addr) (v : Byte) : State :=
  { s with sram := Memory.write s.sram (a.toNat - 0xED0000) v, result := .none }

section
variable {s : State} {a : Addr} (h : regionAt s.cfg.map a = some sramRow)
include h

/-- 45_peripheral R217: a read does not look at the write enable. -/
theorem State.sramRead_of_regionAt : s.sramRead a = Memory.read s.sram (a.toNat - 0xED0000) := by
  rw [State.sramRead, if_pos (offsetAt_sram_lt h), offsetAt_sram h]

/-- 45_peripheral R218: with the write enable set a write stores its byte. -/
theorem State.sramWrite_of_enabled (hwe : s.sramWe = true) (v : Byte) :
    s.sramWrite a v = { s with sram := Memory.write s.sram (a.toNat - 0xED0000) v } := by
  rw [State.sramWrite, if_pos ⟨hwe, offsetAt_sram_lt h⟩, offsetAt_sram h]

/-- The bus at an address of the static RAM is its port (40_bus R90, R91). -/
theorem busPerforms_sram (v : Byte) : BusPerforms s a v (.sramRd a) (.sramWr a v) :=
  busPerforms_of_portDecode (op := fun rw => if rw then .sramWr else .sramRd) (portDecode_of_regionAt h) v

theorem exec_sramRd (halive : s.alive = true) :
    exec (.sramRd a) s = .next (s.returning (.byte (Memory.read s.sram (a.toNat - 0xED0000)))) := by
  rw [← State.sramRead_of_regionAt h]
  exact inContext_completes halive _ _

theorem exec_busRd8_sram (halive : s.alive = true) :
    exec (.busRd8 a) s = .next (s.returning (.byte (Memory.read s.sram (a.toNat - 0xED0000)))) :=
  (busPerforms_sram h 0).1.trans (exec_sramRd h halive)

theorem exec_sramWr_of_enabled (halive : s.alive = true) (hwe : s.sramWe = true) (v : Byte) :
    exec (.sramWr a v) s = .next (s.sramWritten a v) := by
  rw [exec_sramWr halive, State.sramWrite_of_enabled h hwe]
  rfl

end

/-- 45_peripheral R218: every byte of the static RAM after a write. -/
theorem State.read_sramWritten {s : State} (hwf : Memory.wf sramSize s.sram = true) (a : Addr) (v : Byte) (b : Nat) :
    Memory.read (s.sramWritten a v).sram b = if b = a.toNat - 0xED0000 then v else Memory.read s.sram b :=
  Memory.read_write hwf (a.toNat - 0xED0000) v b

/-- Settles O49: the window is one row of the default map, where port and bus agree; the enable alone decides a
write. -/
theorem sramGated : Obligations.SramGated := by
  intro s a v key halive hmap hle hwf hlo hhi
  have hrow : regionAt s.cfg.map a = some sramRow := hmap ▸ regionAt_defaultMap_sram hle hlo hhi
  have hbus : exec (.busWr8 a v) s = exec (.sramWr a v) s := (busPerforms_sram hrow v).2
  refine ⟨inContext_completes halive _ _, exec_sramRd hrow halive, fun hwe => ?_, fun hwe => ?_⟩
  · have hdropped : exec (.sramWr a v) s = .next { s with result := .none } := by
      rw [exec_sramWr halive, State.sramWrite_of_disabled hwe]
      rfl
    exact ⟨hdropped, hbus.trans hdropped⟩
  · have hstored := exec_sramWr_of_enabled hrow halive hwe v
    have hread := State.read_sramWritten hwf a v
    refine ⟨s.sramWritten a v, hstored, rfl, hread, hbus.trans hstored, ?_⟩
    rw [exec_busRd8_sram (s := s.sramWritten a v) hrow halive, hread, if_pos rfl]
    rfl

end Sys2Proof.Machine
end

section
/-! The floppy drives: the media operations, the queries and the sectors of a drive, and O52 and O53 (45_peripheral R200
to R206). -/

namespace Sys2Proof.Machine

/-! ### A change of one drive -/

theorem State.modifyDrive_const (s : State) (d : Nat) (f : Fdd) :
    s.modifyDrive d (fun _ => f) = { s with fdd := s.fdd.set d f } := by
  rw [State.modifyDrive, List.set_eq_modify]

theorem State.modifyDrive_of_getElem? {s : State} {d : Nat} {f : Fdd} (h : s.fdd[d]? = some f) (g : Fdd → Fdd) :
    s.modifyDrive d g = { s with fdd := s.fdd.set d (g f) } := by
  rw [State.modifyDrive, List.modify_eq_set_getElem?, h]
  rfl

/-- 45_peripheral R200: a drive number past the last drive is ignored. -/
theorem State.modifyDrive_of_length_le {s : State} {d : Nat} (h : s.fdd.length ≤ d) (g : Fdd → Fdd) :
    s.modifyDrive d g = s := by
  rw [State.modifyDrive, List.modify_eq_self h]

/-! ### Media -/

section
variable {s : State} {d : Nat}

theorem State.fddGetImage_of_getElem? {f : Fdd} (h : s.fdd[d]? = some f) : s.fddGetImage d = f.image := by
  rw [State.fddGetImage, h]
  rfl

theorem State.fddIsReading_of_getElem? {f : Fdd} (h : s.fdd[d]? = some f) : s.fddIsReading d = f.reading := by
  rw [State.fddIsReading, h]
  rfl

theorem State.fddGetImage_of_length_le (h : s.fdd.length ≤ d) : s.fddGetImage d = none := by
  rw [State.fddGetImage, List.getElem?_eq_none h]
  rfl

theorem State.fddIsReading_of_length_le (h : s.fdd.length ≤ d) : s.fddIsReading d = false := by
  rw [State.fddIsReading, List.getElem?_eq_none h]
  rfl

end

/-- 70_reset R280: between frames an operation of the host that completes answers the state it leaves. -/
theorem betweenFrames_completes {s : State} (h : s.hostReady = true) (u : State) (r : Result) :
    betweenFrames s (completes u r) = .next (u.returning r) := by
  obtain ⟨halive, hidle⟩ := Bool.and_eq_true_iff.1 h
  exact (betweenFrames_of_idle (eq_of_beq hidle) _).trans (inContext_completes halive u r)

section
variable {s : State} (hready : s.hostReady = true) (d : Nat)
include hready

theorem exec_fddInsert (h : Handle) : exec (.fddInsert d h) s = .next ((s.fddInsert d h).returning .none) :=
  betweenFrames_completes hready _ _

theorem exec_fddEject : exec (.fddEject d) s = .next ((s.fddEject d).returning .none) :=
  betweenFrames_completes hready _ _

theorem exec_fddSetImage (g : Option Handle) :
    exec (.fddSetImage d g) s = .next ((s.fddSetImage d g).returning .none) := betweenFrames_completes hready _ _

theorem exec_fddGetImage : exec (.fddGetImage d) s = .next (s.returning (.handle (s.fddGetImage d))) :=
  betweenFrames_completes hready _ _

theorem exec_fddIsReading : exec (.fddIsReading d) s = .next (s.returning (.bit (s.fddIsReading d))) :=
  betweenFrames_completes hready _ _

end

/-- Settles O52: `INSERT` and `EJECT` replace a drive; `SET_IMAGE` and the queries see whether there is one. -/
theorem fddMedia : Obligations.FddMedia := by
  intro s d h g hready
  rw [exec_fddInsert hready, exec_fddEject hready, exec_fddSetImage hready, exec_fddGetImage hready,
    exec_fddIsReading hready]
  refine ⟨?_, ?_, fun f hdrive => ⟨?_, ?_, ?_⟩, fun hpast => ⟨?_, ?_, ?_⟩⟩
  · rw [State.fddInsert, State.modifyDrive_const]
    rfl
  · rw [State.fddEject, State.modifyDrive_const]
    rfl
  · rw [State.fddSetImage, State.modifyDrive_of_getElem? hdrive]
    rfl
  · rw [State.fddGetImage_of_getElem? hdrive]
    rfl
  · rw [State.fddIsReading_of_getElem? hdrive]
    rfl
  · rw [State.fddSetImage, State.modifyDrive_of_length_le hpast]
    rfl
  · rw [State.fddGetImage_of_length_le hpast]
    rfl
  · rw [State.fddIsReading_of_length_le hpast]
    rfl

/-! ### Sectors -/

/-- 45_peripheral R204, R205: a drive with media and a handle reaches its image. -/
theorem State.sectorImage_of_inserted {s : State} {d : Nat} {f : Fdd} (h : s.fdd[d]? = some f)
    (hinserted : f.inserted = true) : s.sectorImage d = f.image := by
  simp only [State.sectorImage, h, hinserted, if_true]

/-- 45_peripheral R204, R205: without a drive, media or a handle no image is reached. -/
theorem State.sectorImage_eq_none {s : State} {d : Nat}
    (h : ∀ f, s.fdd[d]? = some f → f.inserted = false ∨ f.image = none) : s.sectorImage d = none := by
  unfold State.sectorImage
  cases hdrive : s.fdd[d]? with
  | none => rfl
  | some f =>
    rcases h f hdrive with hempty | hhandle
    · exact if_neg (by simp [hempty])
    · simp [hhandle]

section
variable {s : State} {d : Nat}

theorem State.fddReadSector_of_none (h : s.sectorImage d = none) (lba : Nat) :
    s.fddReadSector d lba = (none, s) := by
  rw [State.fddReadSector, h]

theorem State.fddReadSector_of_some {k : Handle} (h : s.sectorImage d = some k) (lba : Nat) :
    s.fddReadSector d lba = (s.imgRead (some k) (lba * s.cfg.fddSectorSize) s.cfg.fddSectorSize,
      s.modifyDrive d fun f => { f with reading := true }) := by
  rw [State.fddReadSector, h]

theorem State.fddWriteSector_of_none (h : s.sectorImage d = none) (lba : Nat) (bs : List Byte) :
    s.fddWriteSector d lba bs = (false, s) := by
  rw [State.fddWriteSector, h]

theorem State.fddWriteSector_of_some {k : Handle} (h : s.sectorImage d = some k) (lba : Nat) (bs : List Byte) :
    s.fddWriteSector d lba bs = s.imgWrite (some k) (lba * s.cfg.fddSectorSize) bs := by
  rw [State.fddWriteSector, h]

end

/-- Settles O53: whether the drive reaches an image decides both operations. -/
theorem fddSectors : Obligations.FddSectors := by
  intro s d lba bs halive
  rw [exec_fddReadSector halive, exec_fddWriteSector halive]
  refine ⟨fun f h hdrive hinserted hhandle => ?_, fun hnone => ?_⟩
  · have himage : s.sectorImage d = some h := (State.sectorImage_of_inserted hdrive hinserted).trans hhandle
    rw [State.fddReadSector_of_some himage, State.fddWriteSector_of_some himage, exec_imgWrite halive,
      State.modifyDrive_of_getElem? hdrive]
    exact ⟨rfl, rfl⟩
  · have himage := State.sectorImage_eq_none hnone
    rw [State.fddReadSector_of_none himage, State.fddWriteSector_of_none himage]
    exact ⟨rfl, rfl⟩

end Sys2Proof.Machine
end

section
/-! The registers of the real-time clock: what a read answers and what a write stores, and O54 (45_peripheral R210,
R211, R213, 30_encoding R83). -/

namespace Sys2Proof.Machine

/-! ### The digits of a calendar time -/

/-- The digits of a calendar time, in the order of their registers (30_encoding R83). -/
def calDigits (t : CalTime) : List Nat :=
  [t.second.val % 10, t.second.val / 10, t.minute.val % 10, t.minute.val / 10, t.hour.val % 10, t.hour.val / 10,
    t.weekday.val, (t.day.val + 1) % 10, (t.day.val + 1) / 10, (t.month.val + 1) % 10, (t.month.val + 1) / 10,
    t.year.val % 10, t.year.val / 10]

/-- The greatest value of each digit (45_peripheral R213). -/
def calDigitMax : List Nat := [9, 5, 9, 5, 9, 2, 6, 9, 3, 9, 1, 9, 9]

theorem liveDigit_eq_calDigits (t : CalTime) {i : Nat} (h : i ≤ 12) :
    liveDigit t i = BitVec.ofNat 4 ((calDigits t).getD i 0) := by
  interval_cases i <;> rfl

/-- 45_peripheral R213: the parts of a calendar time bound its digits. -/
theorem calDigits_le (t : CalTime) {i : Nat} (h : i ≤ 12) : (calDigits t).getD i 0 ≤ calDigitMax.getD i 0 := by
  have hones (n : Nat) : n % 10 ≤ 9 := Nat.le_of_lt_succ (Nat.mod_lt n (by decide))
  have htens {n : Nat} (m : Nat) (hn : n < 10 * (m + 1)) : n / 10 ≤ m := Nat.le_of_lt_succ (Nat.div_lt_of_lt_mul hn)
  interval_cases i
  exacts [hones _, htens 5 t.second.isLt, hones _, htens 5 t.minute.isLt, hones _,
    htens 2 (t.hour.isLt.trans (by decide)), Nat.le_of_lt_succ t.weekday.isLt, hones _,
    htens 3 ((Nat.succ_lt_succ t.day.isLt).trans (by decide)), hones _,
    htens 1 ((Nat.succ_lt_succ t.month.isLt).trans (by decide)), hones _, htens 9 t.year.isLt]

/-- 45_peripheral R213: a live digit is in the range of its register. -/
theorem liveDigit_le (t : CalTime) {i : Nat} (h : i ≤ 12) : (liveDigit t i).toNat ≤ calDigitMax.getD i 0 := by
  rw [liveDigit_eq_calDigits t h]
  exact (Nat.mod_le _ _).trans (calDigits_le t h)

/-! ### The registers by number (45_peripheral R210, R211) -/

/-- 45_peripheral R210: a register that is not a live digit answers its nibble, and nothing is drawn. -/
theorem State.rtcRead_of_stored {s : State} {a : Addr} (h : s.rtc.isLive (rtcIndex a) = false) :
    s.rtcRead a = (s.cfg.rtcHiNibble ++ s.rtc.stored (rtcIndex a), s) := by
  rw [State.rtcRead, h]
  rfl

/-- 45_peripheral R210: a live digit is that of the clock drawn at the read. -/
theorem State.rtcRead_of_live {s : State} {a : Addr} (h : s.rtc.isLive (rtcIndex a) = true) :
    s.rtcRead a = (s.cfg.rtcHiNibble ++ liveDigit s.nextNow (rtcIndex a), s.drewNow) := by
  rw [State.rtcRead, if_pos h]

section
variable {r : Rtc} {i : Nat}

theorem Rtc.isLive_of_gt (h : 12 < i) : r.isLive i = false := by simp [Rtc.isLive, h]

theorem Rtc.isLive_of_bank1 (h : r.mode.getLsbD 0 = true) : r.isLive i = false := by simp [Rtc.isLive, h]

theorem Rtc.isLive_of_bank0 (hi : i ≤ 12) (h : r.mode.getLsbD 0 = false) : r.isLive i = true := by
  rw [Rtc.isLive, decide_eq_true hi, h]
  rfl

/-- 45_peripheral R210: registers 0 to 12 of bank 1. -/
theorem Rtc.stored_bank1 (k : Fin 13) : r.stored k.val = r.b1[k.val] := by
  rw [Rtc.stored, if_neg (by omega), Vector.getElem?_eq_getElem k.isLt]
  rfl

/-- 45_peripheral R210: registers 14 and 15 read 0. -/
theorem Rtc.stored_of_gt (h : 13 < i) : r.stored i = 0 := by
  rw [Rtc.stored, if_neg (by omega), Vector.getElem?_eq_none (by omega)]
  rfl

/-- 45_peripheral R211: a write to register 15 clears both accumulators where bit 1 is set. -/
theorem Rtc.store_fifteen (n : BitVec 4) :
    r.store 15 n = { r with
      r15 := n, ta := if n.getLsbD 1 then 0 else r.ta, tb := if n.getLsbD 1 then 0 else r.tb } := by
  have hstore : r.store 15 n = if n.getLsbD 1 then { r with r15 := n, ta := 0, tb := 0 } else { r with r15 := n } := rfl
  rw [hstore]
  split <;> rfl

theorem Rtc.store_of_le (hi : i ≤ 12) (n : BitVec 4) :
    r.store i n = if r.mode.getLsbD 0 then { r with b1 := r.b1.setIfInBounds i n } else r := by
  rw [Rtc.store, if_neg (by omega), if_neg (by omega), if_neg (by omega)]

/-- 45_peripheral R211: a write to a register of bank 1 stores its nibble. -/
theorem Rtc.store_bank1 (k : Fin 13) (h : r.mode.getLsbD 0 = true) (n : BitVec 4) :
    r.store k.val n = { r with b1 := r.b1.set k.val n } := by
  have hset : r.b1.setIfInBounds k.val n = r.b1.set k.val n :=
    Vector.ext fun j hj => by rw [Vector.getElem_setIfInBounds, Vector.getElem_set]
  rw [Rtc.store_of_le (by omega), if_pos h, hset]

/-- 45_peripheral R211: a write to a digit of bank 0 is dropped. -/
theorem Rtc.store_bank0 (hi : i ≤ 12) (h : r.mode.getLsbD 0 = false) (n : BitVec 4) : r.store i n = r := by
  rw [Rtc.store_of_le hi, h]
  rfl

end

section
variable {s : State} (halive : s.alive = true) {a : Addr}
include halive

theorem exec_rtcRegRd : exec (.rtcRegRd a) s = .next ((s.rtcRead a).2.returning (.byte (s.rtcRead a).1)) :=
  inContext_completes halive _ _

theorem exec_rtcRegRd_of_stored (h : s.rtc.isLive (rtcIndex a) = false) :
    exec (.rtcRegRd a) s =
      .next { s with result := .byte (s.cfg.rtcHiNibble ++ s.rtc.stored (rtcIndex a)) } := by
  rw [exec_rtcRegRd halive, State.rtcRead_of_stored h]
  rfl

/-- 45_peripheral R211: a write stores the low nibble of its byte. -/
theorem exec_rtcRegWr (v : Byte) :
    exec (.rtcRegWr a v) s =
      .next { s with rtc := s.rtc.store (rtcIndex a) (v.extractLsb' 0 4), result := .none } := by
  refine (inContext_completes halive (s.rtcWrite a v) .none).trans ?_
  rw [State.rtcWrite, BitVec.setWidth_eq_extractLsb' (by decide)]
  rfl

end

/-- Settles O54: a read is live or stored by the number of the register and the bank, and a write is `Rtc.store`. -/
theorem rtcRegisters : Obligations.RtcRegisters := by
  intro s a v i n halive hi hn
  subst hn
  have hindex : rtcIndex a = i := hi.symm
  have hrd (h : s.rtc.isLive i = false) :
      exec (.rtcRegRd a) s = .next { s with result := .byte (s.cfg.rtcHiNibble ++ s.rtc.stored i) } :=
    hindex ▸ exec_rtcRegRd_of_stored halive (hindex ▸ h)
  rw [exec_rtcRegWr halive, hindex]
  refine ⟨fun h => ?_, fun h => ?_, fun h => ?_, fun k h hbank => ?_, fun now hnow h hbank => ?_⟩
  · subst h
    exact ⟨hrd (Rtc.isLive_of_gt (by decide)), rfl⟩
  · subst h
    exact ⟨hrd (Rtc.isLive_of_gt (by decide)), rfl⟩
  · subst h
    rw [Rtc.store_fifteen]
    exact ⟨hrd (Rtc.isLive_of_gt (by decide)), rfl⟩
  · subst h
    rw [hrd (Rtc.isLive_of_bank1 hbank), Rtc.stored_bank1, Rtc.store_bank1 k hbank]
    exact ⟨rfl, rfl⟩
  · subst hnow
    rw [Rtc.store_bank0 h hbank, exec_rtcRegRd halive, State.rtcRead_of_live (hindex ▸ Rtc.isLive_of_bank0 h hbank),
      hindex]
    refine ⟨?_, liveDigit_le _ h, rfl⟩
    rw [liveDigit_eq_calDigits _ h]
    rfl

end Sys2Proof.Machine
end

section
/-! The codecs of the snapshot port: each reader of 30_encoding R85 accepts exactly the bytes its writer makes. -/

namespace Sys2Proof.Machine

/-! ### Big-endian numbers -/

@[simp] theorem length_beBytes (n v : Nat) : (beBytes n v).length = n := by
  induction n generalizing v with
  | zero => rfl
  | succ n ih => rw [beBytes, List.length_cons, ih]

theorem beValue_foldl (bs : List Byte) (acc : Nat) :
    bs.foldl (fun acc b => acc * 256 + b.toNat) acc = acc * 256 ^ bs.length + beValue bs := by
  induction bs generalizing acc with
  | nil => simp [beValue]
  | cons b bs ih =>
    rw [beValue, List.foldl_cons, List.foldl_cons, ih, ih, List.length_cons, Nat.pow_succ]
    ring

theorem beValue_cons (b : Byte) (bs : List Byte) :
    beValue (b :: bs) = b.toNat * 256 ^ bs.length + beValue bs := by
  rw [beValue, List.foldl_cons, beValue_foldl, Nat.zero_mul, Nat.zero_add]

theorem beValue_lt (bs : List Byte) : beValue bs < 256 ^ bs.length := by
  induction bs with
  | nil => decide
  | cons b bs ih =>
    have hb : b.toNat + 1 ≤ 256 := b.isLt
    calc beValue (b :: bs) < (b.toNat + 1) * 256 ^ bs.length := by rw [beValue_cons, Nat.succ_mul]; omega
      _ ≤ 256 ^ (b :: bs).length := by
        rw [List.length_cons, Nat.pow_succ, Nat.mul_comm (256 ^ _)]; exact Nat.mul_le_mul_right _ hb

/-- The bytes of a number are those of its residue. -/
theorem beBytes_mod (n v : Nat) : beBytes n (v % 256 ^ n) = beBytes n v := by
  induction n generalizing v with
  | zero => rfl
  | succ n ih =>
    have hhead : BitVec.ofNat 8 (v % 256 ^ (n + 1) / 256 ^ n) = BitVec.ofNat 8 (v / 256 ^ n) := by
      rw [Nat.pow_succ, Nat.mod_mul_right_div_self]
      exact BitVec.eq_of_toNat_eq (Nat.mod_mod _ _)
    have htail : beBytes n (v % 256 ^ (n + 1)) = beBytes n v := by
      rw [← ih, Nat.pow_succ, Nat.mod_mul_right_mod, ih]
    rw [beBytes, beBytes, hhead, htail]

theorem beBytes_beValue (bs : List Byte) : beBytes bs.length (beValue bs) = bs := by
  induction bs with
  | nil => rfl
  | cons b bs ih =>
    have hlt := beValue_lt bs
    have hhead : BitVec.ofNat 8 (beValue (b :: bs) / 256 ^ bs.length) = b := by
      rw [beValue_cons, Nat.mul_comm, Nat.mul_add_div (Nat.pos_of_ne_zero (by simp)), Nat.div_eq_of_lt hlt]
      simp
    have htail : beBytes bs.length (beValue (b :: bs)) = bs := by
      rw [← beBytes_mod, beValue_cons, Nat.mul_add_mod_self_right, Nat.mod_eq_of_lt hlt, ih]
    rw [List.length_cons, beBytes, hhead, htail]

theorem beValue_beBytes (n v : Nat) : beValue (beBytes n v) = v % 256 ^ n := by
  induction n with
  | zero => rw [Nat.pow_zero, Nat.mod_one]; rfl
  | succ n ih =>
    rw [beBytes, beValue_cons, length_beBytes, ih, Nat.pow_succ, Nat.mod_mul, Nat.mul_comm]
    exact Nat.add_comm _ _

/-! ### Scalars, flags and arrays -/

@[simp] theorem length_putField {w : Nat} (x : BitVec w) : (putField x).length = (w + 7) / 8 := length_beBytes _ _

@[simp] theorem length_putFlag (b : Bool) : (putFlag b).length = 1 := length_putField _

@[simp] theorem length_putPend (p : BitVec 9) : (putPend p).length = 2 := rfl

@[simp] theorem length_putNibbles (l : List (BitVec 4)) : (putNibbles l).length = l.length := List.length_map _

theorem two_pow_le_bytes (w : Nat) : 2 ^ w ≤ 256 ^ ((w + 7) / 8) := by
  rw [show (256 : Nat) = 2 ^ 8 from rfl, ← Nat.pow_mul]
  exact Nat.pow_le_pow_right (by decide) (by omega)

theorem beValue_putField {w : Nat} (x : BitVec w) : beValue (putField x) = x.toNat := by
  rw [putField, beValue_beBytes, Nat.mod_eq_of_lt (x.isLt.trans_le (two_pow_le_bytes w))]

theorem putField_ofNat_beValue {w : Nat} {bs : List Byte} (hlen : bs.length = (w + 7) / 8) (h : beValue bs < 2 ^ w) :
    putField (BitVec.ofNat w (beValue bs)) = bs := by
  rw [putField, BitVec.toNat_ofNat, Nat.mod_eq_of_lt h, ← hlen, beBytes_beValue]

theorem getBytes_eq_some {n : Nat} {l a r : List Byte} :
    getBytes n l = some (a, r) ↔ a.length = n ∧ l = a ++ r := by
  unfold getBytes
  constructor
  · intro h
    split at h
    · cases h
    · cases h
      exact ⟨by rw [List.length_take]; omega, (List.take_append_drop n l).symm⟩
  · rintro ⟨rfl, rfl⟩
    simp

theorem getField_eq_some {w : Nat} {l : List Byte} {x : BitVec w} {r : List Byte} :
    getField w l = some (x, r) ↔ l = putField x ++ r := by
  simp only [getField, Option.bind_eq_some_iff, Prod.exists, getBytes_eq_some]
  constructor
  · rintro ⟨a, r', ⟨hlen, rfl⟩, h⟩
    split at h
    · cases h
      rw [putField_ofNat_beValue hlen ‹_›]
    · cases h
  · rintro rfl
    refine ⟨putField x, r, ⟨length_putField x, rfl⟩, ?_⟩
    rw [beValue_putField, if_pos x.isLt, BitVec.ofNat_toNat, BitVec.setWidth_eq]

theorem getFlag_eq_some {l : List Byte} {b : Bool} {r : List Byte} :
    getFlag l = some (b, r) ↔ l = putFlag b ++ r := by
  have hbit (x : BitVec 1) : (x == 1) = b ↔ x = BitVec.ofBool b := by revert x b; decide
  simp only [getFlag, putFlag, Option.map_eq_some_iff, Prod.exists, getField_eq_some, Prod.mk.injEq, hbit]
  grind

/-- `irq.pend` and its two bytes determine each other. -/
theorem pend_eq_iff {lo hi : Byte} {p : BitVec 9} :
    hi.toNat ≤ 1 ∧ hi.setWidth 1 ++ lo = p ↔ [lo, hi] = putPend p := by
  have hval (x : BitVec 1) : (x ++ lo).toNat = x.toNat * 256 + lo.toNat := by
    rw [BitVec.toNat_append, ← Nat.shiftLeft_add_eq_or_of_lt lo.isLt, Nat.shiftLeft_eq]
  have hlo := lo.isLt
  simp only [putPend, List.cons.injEq, and_true, ← BitVec.toNat_inj, hval, BitVec.toNat_setWidth,
    BitVec.extractLsb'_toNat, Nat.shiftRight_eq_div_pow]
  omega

theorem getPend_eq_some {l : List Byte} {p : BitVec 9} {r : List Byte} :
    getPend l = some (p, r) ↔ l = putPend p ++ r := by
  match l with
  | [] => simp [getPend, putPend]
  | [_] => simp [getPend, putPend]
  | lo :: hi :: rest =>
    have h : lo :: hi :: rest = putPend p ++ r ↔ [lo, hi] = putPend p ∧ rest = r := by
      simp [putPend, and_assoc]
    rw [h, ← pend_eq_iff, getPend]
    simp [and_assoc]

/-- A byte with a clear upper nibble is a 4-bit register. -/
theorem byte_eq_setWidth_iff {b : Byte} {n : BitVec 4} : b.toNat ≤ 15 ∧ b.setWidth 4 = n ↔ b = n.setWidth 8 := by
  constructor
  · rintro ⟨h, rfl⟩
    bv_omega
  · rintro rfl
    bv_omega

theorem nibbles_eq_iff {bs : List Byte} {v : List (BitVec 4)} :
    (bs.all fun b => decide (b.toNat ≤ 15)) = true ∧ bs.map (fun b => b.setWidth 4) = v ↔ bs = putNibbles v := by
  induction bs generalizing v with
  | nil => simp [putNibbles, eq_comm]
  | cons b bs ih =>
    cases v with
    | nil => simp [putNibbles]
    | cons n v =>
      have hcons : putNibbles (n :: v) = n.setWidth 8 :: putNibbles v := rfl
      rw [hcons, List.cons.injEq, ← byte_eq_setWidth_iff, ← ih, List.map_cons, List.cons.injEq, List.all_cons,
        Bool.and_eq_true, decide_eq_true_eq]
      exact and_and_and_comm

theorem getNibbles_eq_some {n : Nat} {l : List Byte} {v : List (BitVec 4)} {r : List Byte} :
    getNibbles n l = some (v, r) ↔ v.length = n ∧ l = putNibbles v ++ r := by
  simp only [getNibbles, Option.bind_eq_some_iff, Prod.exists, getBytes_eq_some, Option.ite_none_right_eq_some,
    Option.some.injEq, Prod.mk.injEq]
  constructor
  · rintro ⟨bs, r', ⟨hlen, rfl⟩, hall, hmap, rfl⟩
    obtain rfl := nibbles_eq_iff.1 ⟨hall, hmap⟩
    exact ⟨(length_putNibbles v).symm.trans hlen, rfl⟩
  · rintro ⟨hlen, rfl⟩
    obtain ⟨hall, hmap⟩ := nibbles_eq_iff.2 (Eq.refl (putNibbles v))
    exact ⟨_, _, ⟨(length_putNibbles v).trans hlen, rfl⟩, hall, hmap, rfl⟩

theorem dropTag_eq_some {mode : SnapMode} {name l r : List Byte} :
    dropTag mode name l = some r ↔ l = tag mode name ++ r := by
  simp only [dropTag, Option.bind_eq_some_iff, Prod.exists, getBytes_eq_some, Option.ite_none_right_eq_some]
  grind

/-! ### The components of Table S -/

/-- A reader of several fields reads its first field and then the others. Used from the outside in (`↓`), it takes a
long chain of reads apart one field at a time. -/
theorem bind_eq_some_of_reader {α β : Type} {g : Option (α × List Byte)} {k : α × List Byte → Option β} {y : β} :
    (g >>= k) = some y ↔ ∃ x l, g = some (x, l) ∧ k (x, l) = some y := by
  rw [Option.bind_eq_bind, Option.bind_eq_some_iff, Prod.exists]

theorem getClock_eq_some {l : List Byte} {k : Clock} {r : List Byte} :
    getClock l = some (k, r) ↔ l = putClock k ++ r := by
  cases k
  simp [getClock, putClock, Option.bind_eq_some_iff, getField_eq_some]

theorem getSched_eq_some {l : List Byte} {k : Sched} {r : List Byte} :
    getSched l = some (k, r) ↔ k.seq = .idle ∧ l = putSched k ++ r := by
  cases k
  rw [getSched]
  simp only [↓bind_eq_some_of_reader, ↓getField_eq_some, ↓getFlag_eq_some, Option.ite_none_right_eq_some,
    Option.some.injEq, Prod.mk.injEq, Sched.mk.injEq]
  simp only [putSched, List.append_assoc, existsAndEq, and_true, true_and, and_assoc]
  grind

theorem getChannel_eq_some {l : List Byte} {c : DmaChannel} {r : List Byte} :
    getChannel l = some (c, r) ↔ l = putChannel c ++ r := by
  cases c
  simp [getChannel, putChannel, Option.bind_eq_some_iff, getField_eq_some, getFlag_eq_some, -Bool.exists_bool]

theorem vector3_eq_iff {α : Type} {v : Vector α 3} {a b c : α} :
    #v[a, b, c] = v ↔ a = v[0] ∧ b = v[1] ∧ c = v[2] := by
  rw [Vector.ext_iff]
  constructor
  · exact fun h => ⟨h 0 (by decide), h 1 (by decide), h 2 (by decide)⟩
  · rintro ⟨rfl, rfl, rfl⟩ i hi
    interval_cases i <;> rfl

theorem getDma_eq_some {l : List Byte} {v : Vector DmaChannel 3} {r : List Byte} :
    getDma l = some (v, r) ↔ l = putDma v ++ r := by
  simp [getDma, putDma, Option.bind_eq_some_iff, getChannel_eq_some, vector3_eq_iff, -Vector.mk_eq]

theorem Phase.ofCode_eq_some {x : BitVec 4} {p : Phase} : Phase.ofCode x = some p ↔ x = p.code := by
  revert x
  cases p <;> decide

theorem vectorOf_eq_iff {α : Type} {n : Nat} {d : α} {a : List α} {v : Vector α n} :
    a.length = n ∧ vectorOf n d a = v ↔ a = v.toList := by
  have htoList (h : a.length = n) : (vectorOf n d a).toList = a := by
    subst h
    exact List.ext_getElem (by simp) fun i hi hi' => by simp [vectorOf, hi']
  constructor
  · rintro ⟨hlen, rfl⟩
    exact (htoList hlen).symm
  · rintro rfl
    exact ⟨Vector.length_toList, Vector.toList_inj.1 (htoList Vector.length_toList)⟩

theorem getSasi_eq_some {l : List Byte} {d : Sasi} {r : List Byte} :
    getSasi l = some (d, r) ↔ l = putSasi d ++ r := by
  cases d
  rw [getSasi]
  simp only [↓bind_eq_some_of_reader, ↓getField_eq_some, ↓getFlag_eq_some, ↓getBytes_eq_some, Option.bind_eq_bind,
    Option.bind_eq_some_iff, Phase.ofCode_eq_some, Option.some.injEq, Prod.mk.injEq, Sasi.mk.injEq]
  simp only [putSasi, List.append_assoc, existsAndEq, and_true, true_and, and_assoc]
  constructor
  · rintro ⟨cmd, buf, sense, rfl, hcmd, hbuf, hsense, rfl, rfl, rfl⟩
    rw [← vectorOf_eq_iff.1 ⟨hcmd, rfl⟩, ← vectorOf_eq_iff.1 ⟨hbuf, rfl⟩, ← vectorOf_eq_iff.1 ⟨hsense, rfl⟩]
  · rintro rfl
    exact ⟨_, _, _, rfl, Vector.length_toList, Vector.length_toList, Vector.length_toList,
      (vectorOf_eq_iff.2 rfl).2, (vectorOf_eq_iff.2 rfl).2, (vectorOf_eq_iff.2 rfl).2⟩

/-- The flags of the drives, as `putFdd` writes them without the image handles. -/
def putFlags (fs : List (Bool × Bool)) : List Byte := fs.flatMap fun f => putFlag f.1 ++ putFlag f.2

theorem getFdd_eq_some {n : Nat} {l : List Byte} {fs : List (Bool × Bool)} {r : List Byte} :
    getFdd n l = some (fs, r) ↔ fs.length = n ∧ l = putFlags fs ++ r := by
  induction n generalizing l fs with
  | zero => cases fs <;> simp [getFdd, putFlags, eq_comm]
  | succ n ih =>
    rcases fs with _ | ⟨⟨i, j⟩, fs⟩
    · simp [getFdd, Option.bind_eq_some_iff]
    · simp [getFdd, putFlags, Option.bind_eq_some_iff, getFlag_eq_some, ih, -Bool.exists_bool, and_comm]

theorem getRtc_eq_some {l : List Byte} {k : Rtc} {r : List Byte} :
    getRtc l = some (k, r) ↔ l = putRtc k ++ r := by
  cases k
  simp [getRtc, putRtc, Option.bind_eq_some_iff, getField_eq_some, getNibbles_eq_some, vectorOf_eq_iff]

end Sys2Proof.Machine
end

section
/-! The stream of a snapshot: the blocks as one list, where bytes stand in a buffer, and the buffers `VALID` accepts
(46_snapshot R230, R235). -/

namespace Sys2Proof.Machine

/-! ### Memories -/

theorem Memory.readRange_ofBytes {n : Nat} {bs : List Byte} (h : bs.length = n) :
    Memory.readRange (Memory.ofBytes 0 bs) 0 n = bs := by
  refine List.ext_getElem (by simp [h]) fun i hi hi' => ?_
  simp [Memory.readRange, Memory.read_ofBytes, hi']

/-- A memory in canonical form and its bytes determine each other. -/
theorem Memory.ofBytes_eq_iff {n : Nat} {bs : List Byte} {m : Memory} :
    bs.length = n ∧ Memory.ofBytes 0 bs = m ↔ Memory.wf n m = true ∧ bs = Memory.readRange m 0 n := by
  constructor
  · rintro ⟨hlen, rfl⟩
    exact ⟨Memory.ofBytes_wf hlen.le, (Memory.readRange_ofBytes hlen).symm⟩
  · rintro ⟨hwf, rfl⟩
    exact ⟨Memory.readRange_length m 0 n, Memory.ofBytes_readRange hwf⟩

/-! ### The stream -/

/-- The rows of Table S a state holds. -/
def State.snapshot (s : State) : Snapshot :=
  { clk := s.clk, sched := s.sched, pend := s.pend, dma := s.dma, sasi := s.sasi
    fdd := s.fdd.map fun f => (f.inserted, f.reading)
    rtc := s.rtc, sramWe := s.sramWe, sram := s.sram, ram := s.ram }

/-- The components in the order of the registry, each with its name and its bytes (46_snapshot R230, R237). -/
def Snapshot.registry (c : Cfg) (n : Snapshot) : List (List Byte × List Byte) :=
  [(nameClock, putClock n.clk), (nameSched, putSched n.sched), (nameIrq, putPend n.pend), (nameDma, putDma n.dma),
   (nameSasi, putSasi n.sasi), (nameFdd, putFlags n.fdd), (nameRtc, putRtc n.rtc), (nameSysport, putFlag n.sramWe),
   (nameSram, Memory.readRange n.sram 0 sramSize), (nameRam, Memory.readRange n.ram 0 c.ramSize)]

/-- The blocks of the rows of Table S, without the length word. -/
def Snapshot.stream (c : Cfg) (mode : SnapMode) (n : Snapshot) : List Byte :=
  (n.registry c).flatMap fun p => tag mode p.1 ++ p.2

theorem putFdd_eq_putFlags (ds : List Fdd) : putFdd ds = putFlags (ds.map fun f => (f.inserted, f.reading)) := by
  rw [putFdd, putFlags, List.flatMap_map]

theorem putBlocks_eq_stream (s : State) (mode : SnapMode) : putBlocks s mode = s.snapshot.stream s.cfg mode := by
  simp [putBlocks, Snapshot.stream, Snapshot.registry, State.snapshot, putFdd_eq_putFlags]

theorem bind_dropTag_eq_some {β : Type} {mode : SnapMode} {name l : List Byte} {k : List Byte → Option β} {y : β} :
    (dropTag mode name l >>= k) = some y ↔ ∃ r, l = tag mode name ++ r ∧ k r = some y := by
  simp only [Option.bind_eq_bind, Option.bind_eq_some_iff, dropTag_eq_some]

/-- The blocks are read back from the bytes they were written to, and from no other (46_snapshot R233). -/
theorem getBlocks_eq_some {c : Cfg} {mode : SnapMode} {l : List Byte} {n : Snapshot} :
    getBlocks c mode l = some n ↔ n.Fits c ∧ n.stream c mode <+: l := by
  rcases n with ⟨clk, sched, pend, dma, sasi, fdd, rtc, sramWe, sram, ram⟩
  rw [getBlocks]
  simp only [↓bind_eq_some_of_reader, ↓bind_dropTag_eq_some, ↓getClock_eq_some, ↓getSched_eq_some, ↓getPend_eq_some,
    ↓getDma_eq_some, ↓getSasi_eq_some, ↓getFdd_eq_some, ↓getRtc_eq_some, ↓getFlag_eq_some, ↓getBytes_eq_some,
    Option.some.injEq, Snapshot.mk.injEq]
  simp only [existsAndEq, true_and, and_assoc, Snapshot.stream, Snapshot.registry, List.flatMap_cons, List.flatMap_nil,
    List.append_nil, List.append_assoc]
  constructor
  · rintro ⟨sramBytes, ramBytes, rest, rfl, hseq, hdrives, hsram, hram, hsram', hram'⟩
    obtain ⟨hsramWf, hsramEq⟩ := Memory.ofBytes_eq_iff.1 ⟨hsram, hsram'⟩
    obtain ⟨hramWf, hramEq⟩ := Memory.ofBytes_eq_iff.1 ⟨hram, hram'⟩
    exact ⟨⟨hsramWf, hramWf, hdrives, hseq⟩, rest, by simp only [hsramEq, hramEq, List.append_assoc]⟩
  · rintro ⟨⟨hsram, hram, hdrives, hseq⟩, rest, rfl⟩
    obtain ⟨hsramLen, hsramEq⟩ := Memory.ofBytes_eq_iff.2 ⟨hsram, rfl⟩
    obtain ⟨hramLen, hramEq⟩ := Memory.ofBytes_eq_iff.2 ⟨hram, rfl⟩
    exact ⟨_, _, rest, by simp only [List.append_assoc], hseq, hdrives, hsramLen, hramLen, hsramEq, hramEq⟩

/-! ### Sizes -/

theorem length_tag (mode : SnapMode) (name : List Byte) : (tag mode name).length = tagged mode (name.length + 1) := by
  cases mode <;> rfl

@[simp] theorem length_putClock (k : Clock) : (putClock k).length = 28 := by simp [putClock]

@[simp] theorem length_putSched (k : Sched) : (putSched k).length = 10 := by simp [putSched]

@[simp] theorem length_putChannel (c : DmaChannel) : (putChannel c).length = 16 := by simp [putChannel]

@[simp] theorem length_putDma (v : Vector DmaChannel 3) : (putDma v).length = 48 := by simp [putDma]

@[simp] theorem length_putSasi (d : Sasi) : (putSasi d).length = 283 := by simp [putSasi]

@[simp] theorem length_putFlags (fs : List (Bool × Bool)) : (putFlags fs).length = 2 * fs.length := by
  induction fs with
  | nil => rfl
  | cons f fs ih =>
    rw [putFlags, List.flatMap_cons, List.length_append, ← putFlags, ih, List.length_append, List.length_cons,
      length_putFlag, length_putFlag]
    omega

@[simp] theorem length_putRtc (k : Rtc) : (putRtc k).length = 23 := by simp [putRtc]

theorem streamSize_eq (c : Cfg) (mode : SnapMode) :
    streamSize c mode = 16783 + 2 * c.numFdd + c.ramSize + tagged mode 50 := by
  cases mode <;> rfl

/-- 46_snapshot R232: the stream is its four length bytes and the blocks. -/
theorem length_stream {c : Cfg} {n : Snapshot} (h : n.fdd.length = c.numFdd) (mode : SnapMode) :
    4 + (n.stream c mode).length = streamSize c mode := by
  cases mode <;>
    simp [streamSize_eq, tagged, Snapshot.stream, Snapshot.registry, tag, h, sramSize, nameClock, nameSched, nameIrq,
      nameDma, nameSasi, nameFdd, nameRtc, nameSysport, nameSram, nameRam] <;> omega

/-! ### What stands in a buffer -/

/-- The bytes `bs` stand in a buffer from place `i` on. -/
def Stands (buf : List Byte) (i : Nat) (bs : List Byte) : Prop := bs <+: buf.drop i

theorem stands_append {buf : List Byte} {i : Nat} {a b : List Byte} :
    Stands buf i (a ++ b) ↔ Stands buf i a ∧ Stands buf (i + a.length) b := by
  simp only [Stands, ← List.drop_drop]
  constructor
  · rintro ⟨r, hr⟩
    rw [← hr, List.append_assoc, List.drop_left]
    exact ⟨List.prefix_append _ _, List.prefix_append _ _⟩
  · rintro ⟨⟨r, hr⟩, hb⟩
    rw [← hr, List.drop_left] at hb
    rw [← hr]
    exact List.prefix_append_right_inj a |>.2 hb

theorem bufferByte_add (buf : List Byte) (i j : Nat) : bufferByte buf (i + j) = bufferByte (buf.drop i) j := by
  simp [bufferByte, List.getD_eq_getElem?_getD]

theorem Stands.byte {buf bs : List Byte} {i j : Nat} (h : Stands buf i bs) (hj : j < bs.length) :
    bufferByte buf (i + j) = bs[j].toNat := by
  obtain ⟨r, hr⟩ := h
  rw [bufferByte_add, ← hr, bufferByte, List.getD_append _ _ _ _ hj, List.getD_eq_getElem _ _ hj]

theorem Stands.value {buf bs : List Byte} {i : Nat} (h : Stands buf i bs) :
    bufferValue buf i bs.length = beValue bs := by
  induction bs generalizing i with
  | nil => rfl
  | cons b bs ih =>
    have htail : Stands buf (i + 1) bs := (stands_append (a := [b]).1 h).2
    have hhead : bufferByte buf i = b.toNat := h.byte (j := 0) (Nat.succ_pos _)
    rw [List.length_cons, bufferValue, ih htail, hhead, beValue_cons, Nat.pow_mul]

/-! ### Valid buffers -/

theorem parseSnapshot_eq_some {c : Cfg} {mode : SnapMode} {buf : List Byte} {n : Snapshot} :
    parseSnapshot c mode buf = some n ↔
      SnapshotLength c mode buf ∧ Stands buf 4 (n.stream c mode) ∧ n.Fits c ∧ n.valid c = true := by
  have hword {w : List Byte} (hw : w.length = 4) (rest : List Byte) : bufferValue (w ++ rest) 0 4 = beValue w :=
    hw ▸ Stands.value (List.prefix_append w rest)
  rw [SnapshotLength, ← streamSize_eq]
  unfold parseSnapshot
  cases hbytes : getBytes 4 buf with
  | none =>
    have hshort : buf.length < 4 := by
      by_contra h
      simp [getBytes, h] at hbytes
    have hsize : 4 ≤ streamSize c mode := by rw [streamSize_eq]; omega
    simp only [reduceCtorEq, false_iff]
    rintro ⟨⟨hlen, -⟩, -⟩
    omega
  | some r =>
    obtain ⟨word, rest⟩ := r
    obtain ⟨hlen, rfl⟩ := getBytes_eq_some.1 hbytes
    simp only [hword hlen, Option.ite_none_right_eq_some, Option.filter_eq_some_iff, getBlocks_eq_some, Stands,
      List.drop_left' hlen]
    grind

end Sys2Proof.Machine
end

section
/-! `SAVE` and `LOAD` between frames, and O59 (46_snapshot R230, R231, R233). -/

namespace Sys2Proof.Machine

/-! ### The two operations -/

theorem length_lengthWord (n : Nat) : (lengthWord n).length = 4 := by
  unfold lengthWord
  split
  · exact length_beBytes _ _
  · exact length_putField _

theorem State.saved_eq (s : State) (mode : SnapMode) :
    s.saved mode = lengthWord (streamSize s.cfg mode) ++ s.snapshot.stream s.cfg mode := by
  rw [State.saved, putBlocks_eq_stream]

section
variable {s : State} (hdrives : s.fdd.length = s.cfg.numFdd) (mode : SnapMode)
include hdrives

theorem length_saved : (s.saved mode).length = streamSize s.cfg mode := by
  rw [State.saved_eq, List.length_append, length_lengthWord,
    length_stream (n := s.snapshot) ((List.length_map _).trans hdrives)]

theorem saved_snapshotLength (h : streamSize s.cfg mode < 2 ^ 32) : SnapshotLength s.cfg mode (s.saved mode) := by
  have hword : Stands (s.saved mode) 0 (beBytes 4 (streamSize s.cfg mode)) := by
    rw [State.saved_eq, lengthWord, if_pos h]
    exact List.prefix_append _ _
  have hvalue := hword.value
  rw [length_beBytes, beValue_beBytes, Nat.mod_eq_of_lt (by omega)] at hvalue
  rw [SnapshotLength, ← streamSize_eq, length_saved hdrives]
  exact ⟨rfl, hvalue⟩

end

theorem saved_stands (s : State) (mode : SnapMode) : Stands (s.saved mode) 4 (s.snapshot.stream s.cfg mode) := by
  rw [Stands, State.saved_eq, List.drop_left' (length_lengthWord _)]

theorem exec_save {s : State} (h : s.hostReady = true) (mode : SnapMode) :
    exec (.save mode) s = .next (s.returning (.buffer (s.saved mode))) :=
  betweenFrames_completes h _ _

theorem exec_load_of_some {s : State} (h : s.hostReady = true) {mode : SnapMode} {buf : List Byte} {n : Snapshot}
    (hn : parseSnapshot s.cfg mode buf = some n) : exec (.load mode buf) s = .next ((s.restore n).returning .ok) := by
  have hload : exec (.load mode buf) s = betweenFrames s (completes (s.restore n) .ok) := by
    change betweenFrames s _ = _
    rw [hn]
  rw [hload, betweenFrames_completes h]

theorem exec_load_of_none {s : State} (h : s.hostReady = true) {mode : SnapMode} {buf : List Byte}
    (hn : parseSnapshot s.cfg mode buf = none) :
    exec (.load mode buf) s = .next (s.returning .stateIntegrityError) := by
  have hload : exec (.load mode buf) s = betweenFrames s (completes s .stateIntegrityError) := by
    change betweenFrames s _ = _
    rw [hn]
  rw [hload, betweenFrames_completes h]

/-! ### The round trip -/

/-- Between frames the rows of a state that meets the invariant make a snapshot `VALID` accepts. -/
theorem State.Inv.fits_and_valid {s : State} (h : s.Inv) (hline : s.LineInv) (hready : s.hostReady = true) :
    s.snapshot.Fits s.cfg ∧ s.snapshot.valid s.cfg = true := by
  obtain ⟨-, hseq⟩ := Bool.and_eq_true_iff.1 hready
  rw [beq_iff_eq] at hseq
  rw [State.LineInv, if_pos hseq] at hline
  exact ⟨⟨h.sram, h.ram, (List.length_map _).trans h.drives, hseq⟩,
    (Snapshot.valid_iff _ _).2 ⟨⟨hline, h.skipq⟩, h.channels, h.sasi⟩⟩

theorem parseSnapshot_saved {s : State} (h : s.Inv) (hline : s.LineInv) (hready : s.hostReady = true)
    (mode : SnapMode) (hsize : streamSize s.cfg mode < 2 ^ 32) :
    parseSnapshot s.cfg mode (s.saved mode) = some s.snapshot :=
  parseSnapshot_eq_some.2
    ⟨saved_snapshotLength h.drives mode hsize, saved_stands s mode, h.fits_and_valid hline hready⟩

/-- The flags come from the drives that were saved, the image handles stay (46_snapshot R231). -/
theorem State.restore_snapshot (s' s : State) :
    s'.restore s.snapshot = { s' with
      clk := s.clk, sched := s.sched, pend := s.pend, dma := s.dma, sasi := s.sasi
      fdd := List.zipWith (fun here saved => { saved with image := here.image }) s'.fdd s.fdd
      rtc := s.rtc, sramWe := s.sramWe, sram := s.sram, ram := s.ram } := by
  simp only [State.restore, State.snapshot, List.zipWith_map_right]

theorem State.restore_snapshot_self (s : State) : s.restore s.snapshot = s := by
  rw [State.restore_snapshot, List.zipWith_self, List.map_id'']
  intro f
  rfl

/-- Settles O59: the buffer `SAVE` answers parses to the rows it was made of, which `LOAD` then restores. -/
theorem saveLoadRoundTrip : Obligations.SaveLoadRoundTrip := by
  intro s s' mode hready hready' hinv hline _ hcfg hsize
  have hstream : streamSize s.cfg mode < 2 ^ 32 := by
    cases mode <;> simp only [streamSize_eq, tagged] <;> omega
  have hparse := parseSnapshot_saved hinv hline hready mode hstream
  refine ⟨s.saved mode, exec_save hready mode, ?_, ?_⟩
  · rw [exec_load_of_some hready' (hcfg ▸ hparse), State.restore_snapshot]
    rfl
  · rw [exec_load_of_some hready hparse, State.restore_snapshot_self]
    rfl

end Sys2Proof.Machine
end

section
/-! The places of the rows of Table S in a stream, and O57 (46_snapshot R230, R232, 30_encoding R85). -/

namespace Sys2Proof.Machine

/-! ### The blocks and their names -/

theorem stands_iff_map_toNat {buf bs : List Byte} {i : Nat} :
    Stands buf i bs ↔ ((buf.drop i).take bs.length).map BitVec.toNat = bs.map BitVec.toNat := by
  rw [Stands, List.prefix_iff_eq_take, eq_comm, List.map_inj_right fun _ _ => BitVec.eq_of_toNat_eq]

/-- The names of the blocks and their lengths are the tags of a durable stream (30_encoding R85). -/
theorem snapshotNames_iff {c : Cfg} {buf : List Byte} :
    SnapshotNames c buf ↔
      Stands buf 4 (tag .durable nameClock) ∧ Stands buf 38 (tag .durable nameSched) ∧
        Stands buf 54 (tag .durable nameIrq) ∧ Stands buf 60 (tag .durable nameDma) ∧
        Stands buf 112 (tag .durable nameSasi) ∧ Stands buf 400 (tag .durable nameFdd) ∧
        Stands buf (404 + 2 * c.numFdd) (tag .durable nameRtc) ∧
        Stands buf (431 + 2 * c.numFdd) (tag .durable nameSysport) ∧
        Stands buf (440 + 2 * c.numFdd) (tag .durable nameSram) ∧
        Stands buf (16829 + 2 * c.numFdd) (tag .durable nameRam) := by
  simp only [SnapshotNames, blockNames, List.forall_mem_cons, List.not_mem_nil, false_implies, implies_true,
    and_true, stands_iff_map_toNat]
  rfl

/-- Where the blocks of a snapshot stand in a buffer, with their names in durable mode (30_encoding R85). -/
structure Snapshot.Placed (c : Cfg) (mode : SnapMode) (buf : List Byte) (n : Snapshot) : Prop where
  names : mode = .durable → SnapshotNames c buf
  clk : Stands buf (4 + tagged mode 6) (putClock n.clk)
  sched : Stands buf (32 + tagged mode 12) (putSched n.sched)
  pend : Stands buf (42 + tagged mode 16) (putPend n.pend)
  dma : Stands buf (44 + tagged mode 20) (putDma n.dma)
  sasi : Stands buf (92 + tagged mode 25) (putSasi n.sasi)
  fdd : Stands buf (375 + tagged mode 29) (putFlags n.fdd)
  rtc : Stands buf (375 + 2 * c.numFdd + tagged mode 33) (putRtc n.rtc)
  sramWe : Stands buf (398 + 2 * c.numFdd + tagged mode 41) (putFlag n.sramWe)
  sram : Stands buf (399 + 2 * c.numFdd + tagged mode 46) (Memory.readRange n.sram 0 sramSize)
  ram : Stands buf (16783 + 2 * c.numFdd + tagged mode 50) (Memory.readRange n.ram 0 c.ramSize)

theorem Snapshot.placed_iff {c : Cfg} {mode : SnapMode} {buf : List Byte} {n : Snapshot} :
    n.Placed c mode buf ↔
      (mode = .durable → SnapshotNames c buf) ∧ Stands buf (4 + tagged mode 6) (putClock n.clk) ∧
        Stands buf (32 + tagged mode 12) (putSched n.sched) ∧ Stands buf (42 + tagged mode 16) (putPend n.pend) ∧
        Stands buf (44 + tagged mode 20) (putDma n.dma) ∧ Stands buf (92 + tagged mode 25) (putSasi n.sasi) ∧
        Stands buf (375 + tagged mode 29) (putFlags n.fdd) ∧
        Stands buf (375 + 2 * c.numFdd + tagged mode 33) (putRtc n.rtc) ∧
        Stands buf (398 + 2 * c.numFdd + tagged mode 41) (putFlag n.sramWe) ∧
        Stands buf (399 + 2 * c.numFdd + tagged mode 46) (Memory.readRange n.sram 0 sramSize) ∧
        Stands buf (16783 + 2 * c.numFdd + tagged mode 50) (Memory.readRange n.ram 0 c.ramSize) :=
  ⟨fun ⟨hn, hc, hs, hp, hd, ha, hf, hr, hw, hS, hR⟩ => ⟨hn, hc, hs, hp, hd, ha, hf, hr, hw, hS, hR⟩,
    fun ⟨hn, hc, hs, hp, hd, ha, hf, hr, hw, hS, hR⟩ => ⟨hn, hc, hs, hp, hd, ha, hf, hr, hw, hS, hR⟩⟩

/-- The blocks of a stream stand one after the other, each after its name in durable mode. -/
theorem stands_stream_iff {c : Cfg} {n : Snapshot} (hdrives : n.fdd.length = c.numFdd) {mode : SnapMode}
    {buf : List Byte} : Stands buf 4 (n.stream c mode) ↔ n.Placed c mode buf := by
  have hplace (i j : Nat) : i + 2 * c.numFdd + j = i + j + 2 * c.numFdd := Nat.add_right_comm i _ j
  have hempty (i : Nat) : Stands buf i [] := List.nil_prefix
  simp only [Snapshot.stream, Snapshot.registry, List.flatMap_cons, List.flatMap_nil, List.append_nil,
    List.append_assoc, stands_append, length_tag, length_putClock, length_putSched, length_putPend, length_putDma,
    length_putSasi, length_putFlags, length_putRtc, length_putFlag, Memory.readRange_length, hdrives,
    Snapshot.placed_iff, snapshotNames_iff]
  cases mode with
  | fast =>
    simp only [tagged, tag, Nat.add_zero, Nat.reduceAdd, sramSize, hplace, hempty, reduceCtorEq, false_implies,
      true_and]
  | durable =>
    simp only [tagged, tag, nameClock, nameSched, nameIrq, nameDma, nameSasi, nameFdd, nameRtc, nameSysport, nameSram,
      nameRam, List.length_cons, List.length_nil, Nat.reduceAdd, sramSize, hplace, forall_const]
    grind

/-! ### Scalars -/

theorem Stands.field {buf : List Byte} {i w : Nat} {x : BitVec w} (h : Stands buf i (putField x)) :
    bufferValue buf i ((w + 7) / 8) = x.toNat := by
  rw [← beValue_putField x, ← h.value, length_putField]

theorem Stands.flag {buf : List Byte} {i : Nat} {b : Bool} (h : Stands buf i (putFlag b)) :
    bufferValue buf i 1 = b.toNat :=
  (Stands.field h).trans (BitVec.toNat_ofBool b)

/-- Each of some scalars stands in the buffer: where it begins, its bytes, its value. -/
def ScalarsStand (buf : List Byte) (rows : List (Nat × Nat × Nat)) : Prop :=
  ∀ r ∈ rows, bufferValue buf r.1 r.2.1 = r.2.2

theorem scalarsStand_cons {buf : List Byte} {i n v : Nat} {rows : List (Nat × Nat × Nat)} :
    ScalarsStand buf ((i, n, v) :: rows) ↔ bufferValue buf i n = v ∧ ScalarsStand buf rows :=
  List.forall_mem_cons

theorem scalarsStand_append {buf : List Byte} {a b : List (Nat × Nat × Nat)} :
    ScalarsStand buf (a ++ b) ↔ ScalarsStand buf a ∧ ScalarsStand buf b :=
  List.forall_mem_append

theorem scalarsStand_nil {buf : List Byte} : ScalarsStand buf [] := List.forall_mem_nil _

/-- The scalars of the clock in the order of Table S, from place `o` on. -/
def clockScalars (o : Nat) (k : Clock) : List (Nat × Nat × Nat) :=
  [(o, 4, k.budget.toNat), (o + 4, 2, k.line.toNat), (o + 6, 2, k.nlines.toNat), (o + 8, 4, k.next.toNat),
   (o + 12, 4, k.resid.toNat), (o + 16, 4, k.count.toNat), (o + 20, 4, k.carry.toNat), (o + 24, 4, k.lineused.toNat)]

/-- The scalars of the scheduler. -/
def schedScalars (o : Nat) (k : Sched) : List (Nat × Nat × Nat) :=
  [(o, 1, k.seq.code.toNat), (o + 1, 1, k.mode.toNat), (o + 2, 1, k.render.toNat), (o + 3, 1, k.skipq.toNat),
   (o + 4, 2, k.keyCnt.toNat), (o + 6, 2, k.mouseCnt.toNat), (o + 8, 1, k.fastclrPending.toNat),
   (o + 9, 1, k.fastclrCnt.toNat)]

/-- The scalars of the SASI controller. -/
def sasiScalars (o : Nat) (d : Sasi) : List (Nat × Nat × Nat) :=
  [(o, 1, d.phase.code.toNat), (o + 1, 1, d.device.toNat), (o + 2, 1, d.unit.toNat), (o + 9, 1, d.cmdptr.toNat),
   (o + 10, 4, d.sector.toNat), (o + 14, 2, d.blocks.toNat), (o + 16, 1, d.rw.toNat), (o + 273, 2, d.bufptr.toNat),
   (o + 275, 1, d.stat.toNat), (o + 276, 1, d.error.toNat),
   (o + 281, 1, d.senseptr.toNat), (o + 282, 1, d.vptr.toNat)]

/-- The scalars of the real-time clock. -/
def rtcScalars (o : Nat) (r : Rtc) : List (Nat × Nat × Nat) :=
  [(o, 1, r.mode.toNat), (o + 1, 1, r.r15.toNat), (o + 15, 4, r.ta.toNat), (o + 19, 4, r.tb.toNat)]

section
variable {buf : List Byte} {o : Nat}

theorem scalarsStand_putClock {k : Clock} (h : Stands buf o (putClock k)) : ScalarsStand buf (clockScalars o k) := by
  simp only [putClock, stands_append, length_putField, Nat.reduceAdd, Nat.reduceDiv, Nat.add_assoc] at h
  obtain ⟨hbudget, hline, hnlines, hnext, hresid, hcount, hcarry, hlineused⟩ := h
  simp only [clockScalars, scalarsStand_cons]
  exact ⟨hbudget.field, hline.field, hnlines.field, hnext.field, hresid.field, hcount.field, hcarry.field,
    hlineused.field, scalarsStand_nil⟩

theorem scalarsStand_putSched {k : Sched} (h : Stands buf o (putSched k)) : ScalarsStand buf (schedScalars o k) := by
  simp only [putSched, stands_append, length_putField, length_putFlag, Nat.reduceAdd, Nat.reduceDiv,
    Nat.add_assoc] at h
  obtain ⟨hseq, hmode, hrender, hskipq, hkey, hmouse, hpending, hcnt⟩ := h
  simp only [schedScalars, scalarsStand_cons]
  exact ⟨hseq.field, hmode.field, hrender.flag, hskipq.field, hkey.field, hmouse.field, hpending.flag, hcnt.field,
    scalarsStand_nil⟩

theorem scalarsStand_putChannel {ch : DmaChannel} (h : Stands buf o (putChannel ch)) :
    ScalarsStand buf (channelScalars o ch) := by
  simp only [putChannel, stands_append, length_putField, length_putFlag, Nat.reduceAdd, Nat.reduceDiv,
    Nat.add_assoc] at h
  obtain ⟨hsrc, hdst, hcount, hactive, hsstep, hdstep, hcredit, hdone⟩ := h
  simp only [channelScalars, scalarsStand_cons]
  exact ⟨hsrc.field, hdst.field, hcount.field, hactive.flag, hsstep.field, hdstep.field, hcredit.field, hdone.flag,
    scalarsStand_nil⟩

/-- The channels stand one after the other, channel 0 first (30_encoding R85). -/
theorem stands_putDma_iff {v : Vector DmaChannel 3} :
    Stands buf o (putDma v) ↔ ∀ ch : Fin 3, Stands buf (o + 16 * ch.val) (putChannel v[ch.val]) := by
  rw [putDma, stands_append, stands_append, length_putChannel, length_putChannel]
  constructor
  · rintro ⟨h0, h1, h2⟩ ch
    fin_cases ch
    exacts [h0, h1, h2]
  · exact fun h => ⟨h 0, h 1, h 2⟩

/-- Where the parts of the SASI controller stand. -/
theorem stands_putSasi_iff {d : Sasi} :
    Stands buf o (putSasi d) ↔
      Stands buf o (putField d.phase.code) ∧ Stands buf (o + 1) (putField d.device) ∧
        Stands buf (o + 2) (putField d.unit) ∧ Stands buf (o + 3) d.cmd.toList ∧
        Stands buf (o + 9) (putField d.cmdptr) ∧ Stands buf (o + 10) (putField d.sector) ∧
        Stands buf (o + 14) (putField d.blocks) ∧ Stands buf (o + 16) (putFlag d.rw) ∧
        Stands buf (o + 17) d.buf.toList ∧ Stands buf (o + 273) (putField d.bufptr) ∧
        Stands buf (o + 275) (putField d.stat) ∧ Stands buf (o + 276) (putField d.error) ∧
        Stands buf (o + 277) d.sense.toList ∧ Stands buf (o + 281) (putField d.senseptr) ∧
        Stands buf (o + 282) (putField d.vptr) := by
  simp only [putSasi, stands_append, length_putField, length_putFlag, Vector.length_toList, Nat.reduceAdd,
    Nat.reduceDiv, Nat.add_assoc]

theorem scalarsStand_putSasi {d : Sasi} (h : Stands buf o (putSasi d)) : ScalarsStand buf (sasiScalars o d) := by
  obtain ⟨hphase, hdevice, hunit, -, hcmdptr, hsector, hblocks, hrw, -, hbufptr, hstat, herror, -, hsenseptr, hvptr⟩ :=
    stands_putSasi_iff.1 h
  simp only [sasiScalars, scalarsStand_cons]
  exact ⟨hphase.field, hdevice.field, hunit.field, hcmdptr.field, hsector.field, hblocks.field, hrw.flag,
    hbufptr.field, hstat.field, herror.field, hsenseptr.field, hvptr.field, scalarsStand_nil⟩

theorem stands_putRtc_iff {r : Rtc} :
    Stands buf o (putRtc r) ↔
      Stands buf o (putField r.mode) ∧ Stands buf (o + 1) (putField r.r15) ∧
        Stands buf (o + 2) (putNibbles r.b1.toList) ∧ Stands buf (o + 15) (putField r.ta) ∧
        Stands buf (o + 19) (putField r.tb) := by
  simp only [putRtc, stands_append, length_putField, length_putNibbles, Vector.length_toList, Nat.reduceAdd,
    Nat.reduceDiv, Nat.add_assoc]

theorem scalarsStand_putRtc {r : Rtc} (h : Stands buf o (putRtc r)) : ScalarsStand buf (rtcScalars o r) := by
  obtain ⟨hmode, hr15, -, hta, htb⟩ := stands_putRtc_iff.1 h
  simp only [rtcScalars, scalarsStand_cons]
  exact ⟨hmode.field, hr15.field, hta.field, htb.field, scalarsStand_nil⟩

end

theorem streamScalars_eq (s : State) (mode : SnapMode) :
    streamScalars s mode =
      clockScalars (4 + tagged mode 6) s.clk ++ schedScalars (32 + tagged mode 12) s.sched ++
        (channelScalars (44 + tagged mode 20) s.dma[0] ++ channelScalars (44 + tagged mode 20 + 16) s.dma[1] ++
          channelScalars (44 + tagged mode 20 + 32) s.dma[2]) ++
        (sasiScalars (92 + tagged mode 25) s.sasi ++
          (rtcScalars (375 + 2 * s.cfg.numFdd + tagged mode 33) s.rtc ++
            [(398 + 2 * s.cfg.numFdd + tagged mode 41, 1, s.sramWe.toNat)])) :=
  rfl

theorem Snapshot.Placed.streamScalars {s : State} {mode : SnapMode} {buf : List Byte}
    (h : s.snapshot.Placed s.cfg mode buf) : StreamScalars s mode buf := by
  have hdma := stands_putDma_iff.1 h.dma
  change ScalarsStand buf (Machine.streamScalars s mode)
  simp only [streamScalars_eq, scalarsStand_append, scalarsStand_cons]
  exact ⟨⟨⟨scalarsStand_putClock h.clk, scalarsStand_putSched h.sched⟩,
    ⟨scalarsStand_putChannel (hdma 0), scalarsStand_putChannel (hdma 1)⟩, scalarsStand_putChannel (hdma 2)⟩,
    scalarsStand_putSasi h.sasi, scalarsStand_putRtc h.rtc, h.sramWe.flag, scalarsStand_nil⟩

/-! ### The pending bits and the arrays -/

section
variable {buf : List Byte} {o : Nat}

theorem bufferByte_of_stands_putPend {p : BitVec 9} (h : Stands buf o (putPend p)) :
    bufferByte buf o = (p.extractLsb' 0 8).toNat ∧ bufferByte buf (o + 1) = (p.extractLsb' 8 1).toNat := by
  have hlen := length_putPend p
  exact ⟨h.byte (j := 0) (by omega), (h.byte (j := 1) (by omega)).trans (BitVec.toNat_setWidth_of_le (by decide))⟩

/-- Element `i` of `irq.pend` is bit `i mod 8` of byte `i div 8` (30_encoding R85). -/
theorem testBit_of_stands_putPend {p : BitVec 9} (h : Stands buf o (putPend p)) (i : Fin 9) :
    (bufferByte buf (o + i.val / 8)).testBit (i.val % 8) = p.getLsbD i.val := by
  obtain ⟨hlo, hhi⟩ := bufferByte_of_stands_putPend h
  by_cases hi : i.val < 8
  · rw [Nat.div_eq_of_lt hi, Nat.mod_eq_of_lt hi, Nat.add_zero, hlo, BitVec.testBit_toNat, BitVec.getLsbD_extractLsb']
    simp [hi]
  · have hi8 : i.val = 8 := by omega
    rw [hi8, hhi, BitVec.testBit_toNat, BitVec.getLsbD_extractLsb']
    simp

theorem Stands.vector {n : Nat} {v : Vector Byte n} (h : Stands buf o v.toList) (j : Fin n) :
    bufferByte buf (o + j.val) = v[j.val].toNat :=
  (h.byte (j := j.val) (by simp)).trans (by simp)

theorem bufferByte_of_stands_putNibbles {n : Nat} {v : Vector (BitVec 4) n} (h : Stands buf o (putNibbles v.toList))
    (j : Fin n) : bufferByte buf (o + j.val) = v[j.val].toNat := by
  have hwiden := BitVec.toNat_setWidth_of_le (b := v[j.val]) (by decide : 4 ≤ 8)
  rw [h.byte (by simp), ← hwiden]
  simp [putNibbles]

theorem Stands.range {m : Memory} {n : Nat} (h : Stands buf o (Memory.readRange m 0 n)) {j : Nat} (hj : j < n) :
    bufferByte buf (o + j) = (Memory.read m j).toNat :=
  (h.byte (j := j) (by simp [hj])).trans (by simp [Memory.readRange])

theorem putFlags_cons (f : Bool × Bool) (fs : List (Bool × Bool)) :
    putFlags (f :: fs) = putFlag f.1 ++ (putFlag f.2 ++ putFlags fs) := List.append_assoc _ _ _

theorem bufferValue_one (buf : List Byte) (i : Nat) : bufferValue buf i 1 = bufferByte buf i := by
  simp [bufferValue]

theorem bufferByte_of_stands_putFlags {fs : List (Bool × Bool)} (h : Stands buf o (putFlags fs)) {d : Nat}
    {f : Bool × Bool} (hf : fs[d]? = some f) :
    bufferByte buf (o + 2 * d) = f.1.toNat ∧ bufferByte buf (o + 1 + 2 * d) = f.2.toNat := by
  induction fs generalizing o d with
  | nil => cases hf
  | cons g fs ih =>
    simp only [putFlags_cons, stands_append, length_putFlag] at h
    obtain ⟨hinserted, hreading, hrest⟩ := h
    cases d with
    | zero =>
      cases hf
      rw [← bufferValue_one, ← bufferValue_one]
      exact ⟨hinserted.flag, hreading.flag⟩
    | succ d =>
      have hd := ih hrest hf
      rwa [show o + 1 + 1 + 2 * d = o + 2 * (d + 1) by omega,
        show o + 1 + 1 + 1 + 2 * d = o + 1 + 2 * (d + 1) by omega] at hd

end

theorem Snapshot.Placed.streamPending {s : State} {mode : SnapMode} {buf : List Byte}
    (h : s.snapshot.Placed s.cfg mode buf) : StreamPending s mode buf := by
  obtain ⟨-, hhi⟩ := bufferByte_of_stands_putPend h.pend
  refine ⟨?_, testBit_of_stands_putPend h.pend⟩
  rw [show 43 + tagged mode 16 = 42 + tagged mode 16 + 1 by omega, hhi]
  exact Nat.le_of_lt_succ (BitVec.isLt _)

theorem Snapshot.Placed.streamArrays {s : State} {mode : SnapMode} {buf : List Byte}
    (h : s.snapshot.Placed s.cfg mode buf) : StreamArrays s mode buf := by
  obtain ⟨-, -, -, hcmd, -, -, -, -, hbuf, -, -, -, hsense, -, -⟩ := stands_putSasi_iff.1 h.sasi
  obtain ⟨-, -, hb1, -, -⟩ := stands_putRtc_iff.1 h.rtc
  have hplace (a b k : Nat) (bs : List Byte) (hbs : Stands buf (a + b + k) bs) : Stands buf (a + k + b) bs := by
    rwa [Nat.add_right_comm]
  refine ⟨(hplace _ _ _ _ hcmd).vector, (hplace _ _ _ _ hbuf).vector, (hplace _ _ _ _ hsense).vector, fun d f hf => ?_,
    fun j => ?_, fun j hj => h.sram.range hj, fun j hj => h.ram.range hj⟩
  · have hd := bufferByte_of_stands_putFlags h.fdd (d := d) (f := (f.inserted, f.reading))
      (by simp [State.snapshot, hf])
    rwa [Nat.add_right_comm 375 (tagged mode 29) 1] at hd
  · have hplace : 375 + 2 * s.cfg.numFdd + tagged mode 33 + 2 = 377 + 2 * s.cfg.numFdd + tagged mode 33 := by omega
    exact hplace ▸ bufferByte_of_stands_putNibbles hb1 j

/-- Settles O57: `SAVE` answers the length word and the blocks, and each row stands at its place in its block. -/
theorem saveHasTheStatedSize : Obligations.SaveHasTheStatedSize := by
  intro s mode hready hdrives
  have hplaced : s.snapshot.Placed s.cfg mode (s.saved mode) :=
    (stands_stream_iff ((List.length_map _).trans hdrives)).1 (saved_stands s mode)
  have hlen := length_saved hdrives mode
  refine ⟨s.saved mode, exec_save hready mode, ?_, fun hlt => ?_, hplaced.names, hplaced.streamScalars,
    hplaced.streamPending, hplaced.streamArrays⟩
  · rw [hlen, streamSize_eq]
    cases mode <;> rfl
  · exact (saved_snapshotLength hdrives mode (hlen ▸ hlt)).2

end Sys2Proof.Machine
end

section
/-! The bytes a valid buffer may have, component by component (46_snapshot R235). -/

namespace Sys2Proof.Machine

/-! ### Reading a scalar from its place -/

theorem bufferByte_lt (buf : List Byte) (i : Nat) : bufferByte buf i < 256 := BitVec.isLt _

theorem bufferValue_two (buf : List Byte) {i j : Nat} (h : i + 1 = j) :
    bufferValue buf i 2 = bufferByte buf i * 256 + bufferByte buf j := by
  subst h
  simp [bufferValue]

theorem bufferValue_lt (buf : List Byte) (i n : Nat) : bufferValue buf i n < 256 ^ n := by
  induction n generalizing i with
  | zero => exact Nat.one_pos
  | succ n ih =>
    have hbyte := bufferByte_lt buf i
    calc bufferValue buf i (n + 1) < (bufferByte buf i + 1) * 256 ^ n := by
          rw [bufferValue, Nat.pow_mul, Nat.succ_mul]; exact Nat.add_lt_add_left (ih _) _
      _ ≤ 256 ^ (n + 1) := by rw [Nat.pow_succ, Nat.mul_comm (256 ^ n)]; exact Nat.mul_le_mul_right _ hbyte

theorem stands_take {buf : List Byte} {i n : Nat} : Stands buf i ((buf.drop i).take n) := List.take_prefix _ _

theorem length_take_drop {buf : List Byte} {i n : Nat} (h : i + n ≤ buf.length) :
    ((buf.drop i).take n).length = n := by
  rw [List.length_take, List.length_drop]
  omega

/-- The scalar of `w` bits a buffer holds at a place. -/
def fieldAt (buf : List Byte) (w i : Nat) : BitVec w := BitVec.ofNat w (bufferValue buf i ((w + 7) / 8))

/-- The bytes at a place are those of a scalar where its unused upper bits are clear. -/
theorem stands_fieldAt {buf : List Byte} {w i : Nat} (hlen : i + (w + 7) / 8 ≤ buf.length)
    (h : bufferValue buf i ((w + 7) / 8) < 2 ^ w) : Stands buf i (putField (fieldAt buf w i)) := by
  have hseg := length_take_drop hlen
  have hvalue := (stands_take (buf := buf) (i := i) (n := (w + 7) / 8)).value
  rw [hseg] at hvalue
  rw [fieldAt, hvalue, putField_ofNat_beValue hseg (hvalue ▸ h)]
  exact stands_take

theorem stands_fieldAt_byte {buf : List Byte} {w i : Nat} (hw : (w + 7) / 8 = 1) (hlen : i + 1 ≤ buf.length)
    (h : bufferByte buf i < 2 ^ w) : Stands buf i (putField (fieldAt buf w i)) :=
  stands_fieldAt (hw.symm ▸ hlen) (by rwa [hw, bufferValue_one])

theorem fieldAt_toNat {buf : List Byte} {w i : Nat} (h : bufferValue buf i ((w + 7) / 8) < 2 ^ w) :
    (fieldAt buf w i).toNat = bufferValue buf i ((w + 7) / 8) := by
  rw [fieldAt, BitVec.toNat_ofNat, Nat.mod_eq_of_lt h]

theorem fieldAt_le {buf : List Byte} {w i m : Nat} (h : bufferValue buf i ((w + 7) / 8) ≤ m) :
    (fieldAt buf w i).toNat ≤ m :=
  (Nat.mod_le _ _).trans h

/-- A scalar of whole bytes has no unused bits. -/
theorem bufferValue_lt_of_bytes (buf : List Byte) (i n : Nat) :
    bufferValue buf i ((8 * n + 7) / 8) < 2 ^ (8 * n) := by
  rw [show (8 * n + 7) / 8 = n by omega, Nat.pow_mul]
  exact bufferValue_lt buf i n

/-- The flag a buffer holds at a place. -/
def flagAt (buf : List Byte) (i : Nat) : Bool := bufferByte buf i == 1

theorem stands_flagAt {buf : List Byte} {i : Nat} (hlen : i + 1 ≤ buf.length) (h : bufferByte buf i ≤ 1) :
    Stands buf i (putFlag (flagAt buf i)) := by
  have hbit : BitVec.ofBool (flagAt buf i) = fieldAt buf 1 i := by
    rw [fieldAt, bufferValue_one, flagAt]
    rcases Nat.le_one_iff_eq_zero_or_eq_one.1 h with h0 | h1
    · rw [h0]; rfl
    · rw [h1]; rfl
  rw [putFlag, hbit]
  exact stands_fieldAt hlen (by rw [bufferValue_one]; omega)

/-- The bytes of a buffer at a place. -/
def vectorAt (buf : List Byte) (n i : Nat) : Vector Byte n := vectorOf n 0 ((buf.drop i).take n)

theorem stands_vectorAt {buf : List Byte} {n i : Nat} (hlen : i + n ≤ buf.length) :
    Stands buf i (vectorAt buf n i).toList := by
  rw [vectorAt, ← vectorOf_eq_iff.1 ⟨length_take_drop hlen, rfl⟩]
  exact stands_take

/-- The 4-bit registers of a buffer at a place. -/
def nibblesAt (buf : List Byte) (n i : Nat) : Vector (BitVec 4) n :=
  vectorOf n 0 (((buf.drop i).take n).map fun b => b.setWidth 4)

theorem stands_nibblesAt {buf : List Byte} {n i : Nat} (hlen : i + n ≤ buf.length)
    (h : ∀ j, j < n → bufferByte buf (i + j) ≤ 15) : Stands buf i (putNibbles (nibblesAt buf n i).toList) := by
  have hseg := length_take_drop hlen
  have hsmall : (((buf.drop i).take n).all fun b => decide (b.toNat ≤ 15)) = true := by
    refine List.all_eq_true.2 fun b hb => decide_eq_true ?_
    obtain ⟨j, hj, rfl⟩ := List.getElem_of_mem hb
    rw [← stands_take.byte hj]
    exact h j (hseg ▸ hj)
  rw [nibblesAt, ← vectorOf_eq_iff.1 ⟨(List.length_map _).trans hseg, rfl⟩, ← nibbles_eq_iff.1 ⟨hsmall, rfl⟩]
  exact stands_take

/-- Each of some bytes of a buffer is at most its limit. -/
def LimitsHold (buf : List Byte) (rows : List (Nat × Nat)) : Prop := ∀ p ∈ rows, bufferByte buf p.1 ≤ p.2

theorem limitsHold_cons {buf : List Byte} {i m : Nat} {rows : List (Nat × Nat)} :
    LimitsHold buf ((i, m) :: rows) ↔ bufferByte buf i ≤ m ∧ LimitsHold buf rows :=
  List.forall_mem_cons

theorem limitsHold_append {buf : List Byte} {a b : List (Nat × Nat)} :
    LimitsHold buf (a ++ b) ↔ LimitsHold buf a ∧ LimitsHold buf b :=
  List.forall_mem_append

theorem limitsHold_nil {buf : List Byte} : LimitsHold buf [] := List.forall_mem_nil _

/-! ### The components

For each component, the bytes of its block keep their limits exactly where they encode a value `VALID` accepts. The
value is read off the buffer field by field. -/

/-- The limits in the clock's block: between frames the scanline index is 0. -/
def clockLimits (o : Nat) : List (Nat × Nat) := [(o + 4, 0), (o + 5, 0)]

/-- The limits in the scheduler's block, `m` the cap of the frame-skip counter. -/
def schedLimits (o m : Nat) : List (Nat × Nat) := [(o, 0), (o + 2, 1), (o + 3, m), (o + 8, 1), (o + 9, 3)]

/-- The limits in a DMA channel. -/
def channelLimits (o : Nat) : List (Nat × Nat) := [(o + 8, 1), (o + 9, 3), (o + 10, 3), (o + 15, 1)]

/-- The limits in the SASI controller's block. -/
def sasiLimits (o : Nat) : List (Nat × Nat) :=
  [(o + 2, 1), (o + 9, 5), (o + 16, 1), (o + 273, 0), (o + 281, 3), (o + 282, 9)]

/-- The limits in the block of the real-time clock: its fifteen nibbles. -/
def rtcLimits (o : Nat) : List (Nat × Nat) := (List.range 15).map fun i => (o + i, 15)

section
variable {buf : List Byte} {o : Nat}

theorem clock_limits_iff (hlen : o + 28 ≤ buf.length) :
    (∃ k : Clock, k.line = 0 ∧ Stands buf o (putClock k)) ↔ LimitsHold buf (clockLimits o) := by
  have htwo : bufferValue buf (o + 4) 2 = bufferByte buf (o + 4) * 256 + bufferByte buf (o + 5) :=
    bufferValue_two buf rfl
  simp only [clockLimits, limitsHold_cons, limitsHold_nil, and_true]
  constructor
  · rintro ⟨k, hline, h⟩
    have hscalars := scalarsStand_putClock h
    simp only [clockScalars, scalarsStand_cons, htwo, hline] at hscalars
    obtain ⟨-, hvalue, -⟩ := hscalars
    change _ = 0 at hvalue
    omega
  · rintro ⟨hhi, hlo⟩
    have hline : bufferValue buf (o + 4) 2 = 0 := by omega
    have hbytes (i n : Nat) := bufferValue_lt_of_bytes buf i n
    refine ⟨{ budget := fieldAt buf 32 o, line := fieldAt buf 16 (o + 4), nlines := fieldAt buf 16 (o + 6)
              next := fieldAt buf 32 (o + 8), resid := fieldAt buf 32 (o + 12), count := fieldAt buf 32 (o + 16)
              carry := fieldAt buf 32 (o + 20), lineused := fieldAt buf 32 (o + 24) },
      congrArg (BitVec.ofNat 16) hline, ?_⟩
    simp only [putClock, stands_append, length_putField, Nat.reduceAdd, Nat.reduceDiv, Nat.add_assoc]
    refine ⟨stands_fieldAt ?_ (hbytes _ 4), stands_fieldAt ?_ (hbytes _ 2), stands_fieldAt ?_ (hbytes _ 2),
      stands_fieldAt ?_ (hbytes _ 4), stands_fieldAt ?_ (hbytes _ 4), stands_fieldAt ?_ (hbytes _ 4),
      stands_fieldAt ?_ (hbytes _ 4), stands_fieldAt ?_ (hbytes _ 4)⟩ <;> omega

theorem sched_limits_iff (hlen : o + 10 ≤ buf.length) {m : Nat} :
    (∃ k : Sched, k.seq = .idle ∧ k.skipq.toNat ≤ m ∧ Stands buf o (putSched k)) ↔
      LimitsHold buf (schedLimits o m) := by
  simp only [schedLimits, limitsHold_cons, limitsHold_nil, and_true]
  constructor
  · rintro ⟨k, hseq, hskipq, h⟩
    have hscalars := scalarsStand_putSched h
    simp only [schedScalars, scalarsStand_cons, bufferValue_one, hseq] at hscalars
    obtain ⟨hseq0, -, hrender, hskipqByte, -, -, hpending, hcnt, -⟩ := hscalars
    rw [hseq0, hrender, hskipqByte, hpending, hcnt]
    exact ⟨le_rfl, Bool.toNat_le _, hskipq, Bool.toNat_le _, Nat.le_of_lt_succ (BitVec.isLt _)⟩
  · rintro ⟨hseq, hrender, hskipq, hpending, hcnt⟩
    have hbytes (i n : Nat) := bufferValue_lt_of_bytes buf i n
    have hseq0 : putField Seq.idle.code = putField (fieldAt buf 3 o) := by
      rw [fieldAt, bufferValue_one, Nat.le_zero.1 hseq]
      rfl
    refine ⟨{ seq := .idle, mode := fieldAt buf 8 (o + 1), render := flagAt buf (o + 2)
              skipq := fieldAt buf 8 (o + 3), keyCnt := fieldAt buf 16 (o + 4), mouseCnt := fieldAt buf 16 (o + 6)
              fastclrPending := flagAt buf (o + 8), fastclrCnt := fieldAt buf 2 (o + 9) }, rfl, ?_, ?_⟩
    · exact fieldAt_le ((bufferValue_one _ _).trans_le hskipq)
    · simp only [putSched, stands_append, length_putField, length_putFlag, Nat.reduceAdd, Nat.reduceDiv,
        Nat.add_assoc, hseq0]
      refine ⟨stands_fieldAt_byte rfl ?_ ?_, stands_fieldAt ?_ (hbytes _ 1), stands_flagAt ?_ hrender,
        stands_fieldAt ?_ (hbytes _ 1), stands_fieldAt ?_ (hbytes _ 2), stands_fieldAt ?_ (hbytes _ 2),
        stands_flagAt ?_ hpending, stands_fieldAt_byte rfl ?_ ?_⟩ <;> omega

theorem pend_limits_iff (hlen : o + 2 ≤ buf.length) :
    (∃ p : BitVec 9, Stands buf o (putPend p)) ↔ LimitsHold buf [(o + 1, 1)] := by
  simp only [limitsHold_cons, limitsHold_nil, and_true]
  constructor
  · rintro ⟨p, h⟩
    rw [(bufferByte_of_stands_putPend h).2]
    exact Nat.le_of_lt_succ (BitVec.isLt _)
  · intro hhi
    obtain ⟨lo, hi, hbytes⟩ := List.length_eq_two.1 (length_take_drop hlen)
    have hstands : Stands buf o [lo, hi] := hbytes ▸ stands_take
    have hhi' : hi.toNat ≤ 1 := by
      rwa [hstands.byte (j := 1) (by simp)] at hhi
    exact ⟨_, pend_eq_iff.1 ⟨hhi', rfl⟩ ▸ hstands⟩

theorem flag_limits_iff (hlen : o + 1 ≤ buf.length) :
    (∃ b : Bool, Stands buf o (putFlag b)) ↔ bufferByte buf o ≤ 1 := by
  constructor
  · rintro ⟨b, h⟩
    rw [← bufferValue_one, h.flag]
    exact Bool.toNat_le b
  · exact fun h => ⟨_, stands_flagAt hlen h⟩

theorem channel_limits_iff (hlen : o + 16 ≤ buf.length) :
    (∃ ch : DmaChannel, (ch.active = true → ch.count ≠ 0) ∧ Stands buf o (putChannel ch)) ↔
      LimitsHold buf (channelLimits o) ∧
        (bufferByte buf (o + 8) = 1 → bufferByte buf (o + 6) ≠ 0 ∨ bufferByte buf (o + 7) ≠ 0) := by
  have htwo : bufferValue buf (o + 6) 2 = bufferByte buf (o + 6) * 256 + bufferByte buf (o + 7) :=
    bufferValue_two buf rfl
  simp only [channelLimits, limitsHold_cons, limitsHold_nil, and_true]
  constructor
  · rintro ⟨ch, hvalid, h⟩
    have hscalars := scalarsStand_putChannel h
    simp only [channelScalars, scalarsStand_cons, bufferValue_one, htwo] at hscalars
    obtain ⟨-, -, hcount, hactive, hsstep, hdstep, -, hdone, -⟩ := hscalars
    rw [hactive, hsstep, hdstep, hdone]
    refine ⟨⟨Bool.toNat_le _, Nat.le_of_lt_succ (BitVec.isLt _), Nat.le_of_lt_succ (BitVec.isLt _), Bool.toNat_le _⟩,
      fun hone => ?_⟩
    have hne := hvalid (by simpa using hone)
    rw [ne_eq, ← BitVec.toNat_inj, ← hcount] at hne
    change ¬_ = 0 at hne
    omega
  · rintro ⟨⟨hactive, hsstep, hdstep, hdone⟩, hcount⟩
    have hbytes (i n : Nat) := bufferValue_lt_of_bytes buf i n
    refine ⟨{ src := fieldAt buf 24 o, dst := fieldAt buf 24 (o + 3), count := fieldAt buf 16 (o + 6)
              active := flagAt buf (o + 8), sstep := fieldAt buf 2 (o + 9), dstep := fieldAt buf 2 (o + 10)
              credit := fieldAt buf 32 (o + 11), done := flagAt buf (o + 15) }, fun hone => ?_, ?_⟩
    · have hne := hcount (by simpa [flagAt] using hone)
      rw [ne_eq, ← BitVec.toNat_inj, fieldAt_toNat (hbytes _ 2)]
      change ¬bufferValue buf (o + 6) 2 = 0
      omega
    · simp only [putChannel, stands_append, length_putField, length_putFlag, Nat.reduceAdd, Nat.reduceDiv,
        Nat.add_assoc]
      refine ⟨stands_fieldAt ?_ (hbytes _ 3), stands_fieldAt ?_ (hbytes _ 3), stands_fieldAt ?_ (hbytes _ 2),
        stands_flagAt ?_ hactive, stands_fieldAt_byte rfl ?_ ?_, stands_fieldAt_byte rfl ?_ ?_,
        stands_fieldAt ?_ (hbytes _ 4), stands_flagAt ?_ hdone⟩ <;> omega

theorem phase_code_iff {v : Nat} :
    (∃ p : Phase, p.code.toNat = v) ↔ v ∈ [0, 1, 2, 3, 4, 5, 9, 10] := by
  constructor
  · rintro ⟨p, rfl⟩
    cases p <;> decide
  · intro h
    fin_cases h
    exacts [⟨.busFree, rfl⟩, ⟨.selection, rfl⟩, ⟨.command, rfl⟩, ⟨.data, rfl⟩, ⟨.status, rfl⟩, ⟨.message, rfl⟩,
      ⟨.senseStatus, rfl⟩, ⟨.vendorInit, rfl⟩]

theorem sasi_limits_iff (hlen : o + 283 ≤ buf.length) :
    (∃ d : Sasi, d.valid = true ∧ Stands buf o (putSasi d)) ↔
      LimitsHold buf (sasiLimits o) ∧ bufferByte buf o ∈ [0, 1, 2, 3, 4, 5, 9, 10] ∧
        (bufferByte buf (o + 1) ≤ 7 ∨ bufferByte buf (o + 1) = 0x7F) := by
  have htwo : bufferValue buf (o + 273) 2 = bufferByte buf (o + 273) * 256 + bufferByte buf (o + 274) :=
    bufferValue_two buf rfl
  simp only [sasiLimits, limitsHold_cons, limitsHold_nil, and_true, Sasi.valid_iff, ← phase_code_iff]
  constructor
  · rintro ⟨d, ⟨hcmdptr, hbufptr, hsenseptr, hvptr, hdevice⟩, h⟩
    have hscalars := scalarsStand_putSasi h
    simp only [sasiScalars, scalarsStand_cons, bufferValue_one, htwo] at hscalars
    obtain ⟨hphase, hdeviceByte, hunit, hcmdptrByte, -, -, hrw, hbufptrBytes, -, -, hsenseptrByte, hvptrByte, -⟩ :=
      hscalars
    rw [hphase, hdeviceByte, hunit, hcmdptrByte, hrw, hsenseptrByte, hvptrByte]
    exact ⟨⟨Nat.le_of_lt_succ (BitVec.isLt _), hcmdptr, Bool.toNat_le _, by omega, hsenseptr, hvptr⟩, ⟨_, rfl⟩,
      hdevice.imp_right (congrArg BitVec.toNat)⟩
  · rintro ⟨⟨hunit, hcmdptr, hrw, hbufptr, hsenseptr, hvptr⟩, ⟨phase, hphase⟩, hdevice⟩
    have hbytes (i n : Nat) := bufferValue_lt_of_bytes buf i n
    have hlo := bufferByte_lt buf (o + 274)
    have hcode : phase.code = fieldAt buf 4 o := by
      rw [fieldAt, bufferValue_one, ← hphase, BitVec.ofNat_toNat, BitVec.setWidth_eq]
    have hcode16 := phase.code.isLt
    refine ⟨{ phase, device := fieldAt buf 7 (o + 1), unit := fieldAt buf 1 (o + 2), cmd := vectorAt buf 6 (o + 3)
              cmdptr := fieldAt buf 3 (o + 9), sector := fieldAt buf 32 (o + 10), blocks := fieldAt buf 16 (o + 14)
              rw := flagAt buf (o + 16), buf := vectorAt buf 256 (o + 17), bufptr := fieldAt buf 9 (o + 273)
              stat := fieldAt buf 8 (o + 275), error := fieldAt buf 8 (o + 276), sense := vectorAt buf 4 (o + 277)
              senseptr := fieldAt buf 3 (o + 281), vptr := fieldAt buf 4 (o + 282) }, ⟨?_, ?_, ?_, ?_, ?_⟩, ?_⟩
    · exact fieldAt_le ((bufferValue_one _ _).trans_le hcmdptr)
    · exact fieldAt_le (htwo.trans_le (by omega))
    · exact fieldAt_le ((bufferValue_one _ _).trans_le hsenseptr)
    · exact fieldAt_le ((bufferValue_one _ _).trans_le hvptr)
    · refine hdevice.imp (fun h => fieldAt_le ((bufferValue_one _ _).trans_le h)) fun h => ?_
      rw [fieldAt, bufferValue_one, h]
      rfl
    · simp only [stands_putSasi_iff, hcode]
      refine ⟨stands_fieldAt_byte rfl ?_ ?_, stands_fieldAt_byte rfl ?_ ?_, stands_fieldAt_byte rfl ?_ ?_,
        stands_vectorAt ?_, stands_fieldAt_byte rfl ?_ ?_, stands_fieldAt ?_ (hbytes _ 4),
        stands_fieldAt ?_ (hbytes _ 2), stands_flagAt ?_ hrw, stands_vectorAt ?_, stands_fieldAt ?_ (htwo ▸ ?_),
        stands_fieldAt ?_ (hbytes _ 1), stands_fieldAt ?_ (hbytes _ 1), stands_vectorAt ?_,
        stands_fieldAt_byte rfl ?_ ?_, stands_fieldAt_byte rfl ?_ ?_⟩ <;> omega

theorem rtc_limits_iff (hlen : o + 23 ≤ buf.length) :
    (∃ r : Rtc, Stands buf o (putRtc r)) ↔ LimitsHold buf (rtcLimits o) := by
  have hlimits : LimitsHold buf (rtcLimits o) ↔ ∀ i, i < 15 → bufferByte buf (o + i) ≤ 15 := by
    simp [LimitsHold, rtcLimits]
  rw [hlimits]
  constructor
  · rintro ⟨r, h⟩ i hi
    obtain ⟨hmode, hr15, hb1, -, -⟩ := stands_putRtc_iff.1 h
    rcases i with _ | _ | i
    · rw [Nat.add_zero, ← bufferValue_one, hmode.field]
      exact Nat.le_of_lt_succ (BitVec.isLt _)
    · rw [← bufferValue_one, hr15.field]
      exact Nat.le_of_lt_succ (BitVec.isLt _)
    · rw [show o + (i + 1 + 1) = o + 2 + i by omega, bufferByte_of_stands_putNibbles hb1 ⟨i, by omega⟩]
      exact Nat.le_of_lt_succ (BitVec.isLt _)
  · intro h
    have hbytes (i n : Nat) := bufferValue_lt_of_bytes buf i n
    have hmode : bufferByte buf o ≤ 15 := h 0 (by decide)
    have hr15 := h 1 (by decide)
    refine ⟨{ mode := fieldAt buf 4 o, r15 := fieldAt buf 4 (o + 1), b1 := nibblesAt buf 13 (o + 2)
              ta := fieldAt buf 32 (o + 15), tb := fieldAt buf 32 (o + 19) }, stands_putRtc_iff.2 ⟨
      stands_fieldAt_byte rfl ?_ ?_, stands_fieldAt_byte rfl ?_ ?_, stands_nibblesAt ?_ fun j hj => ?_,
      stands_fieldAt ?_ (hbytes _ 4), stands_fieldAt ?_ (hbytes _ 4)⟩⟩
    case refine_6 => exact Nat.add_assoc o 2 j ▸ h (2 + j) (by omega)
    all_goals omega

theorem flags_limits_iff {n : Nat} (hlen : o + 2 * n ≤ buf.length) :
    (∃ fs : List (Bool × Bool), fs.length = n ∧ Stands buf o (putFlags fs)) ↔
      ∀ i, i < 2 * n → bufferByte buf (o + i) ≤ 1 := by
  constructor
  · rintro ⟨fs, rfl, h⟩ i hi
    have hd : i / 2 < fs.length := by omega
    obtain ⟨hinserted, hreading⟩ := bufferByte_of_stands_putFlags h (List.getElem?_eq_getElem hd)
    rcases Nat.mod_two_eq_zero_or_one i with hi0 | hi1
    · rw [show o + i = o + 2 * (i / 2) by omega, hinserted]
      exact Bool.toNat_le _
    · rw [show o + i = o + 1 + 2 * (i / 2) by omega, hreading]
      exact Bool.toNat_le _
  · intro h
    induction n generalizing o with
    | zero => exact ⟨[], rfl, List.nil_prefix⟩
    | succ n ih =>
      obtain ⟨fs, hfs, hstands⟩ := ih (o := o + 1 + 1) (by omega) fun i hi =>
        (show o + 1 + 1 + i = o + (i + 2) by omega) ▸ h (i + 2) (by omega)
      refine ⟨(flagAt buf o, flagAt buf (o + 1)) :: fs, congrArg (· + 1) hfs, ?_⟩
      simp only [putFlags_cons, stands_append, length_putFlag]
      exact ⟨stands_flagAt (by omega) (h 0 (by omega)), stands_flagAt (by omega) (h 1 (by omega)), hstands⟩

theorem exists_memory {n : Nat} (hlen : o + n ≤ buf.length) :
    ∃ m : Memory, Memory.wf n m = true ∧ Stands buf o (Memory.readRange m 0 n) := by
  obtain ⟨hwf, hbytes⟩ := Memory.ofBytes_eq_iff.1 ⟨length_take_drop hlen, rfl⟩
  exact ⟨_, hwf, hbytes ▸ stands_take⟩

end

end Sys2Proof.Machine
end

section
/-! Valid buffers are those the snapshot port parses, and O58 (46_snapshot R231, R235, 60_exceptions R245). -/

namespace Sys2Proof.Machine

/-! ### The bytes R235 limits -/

theorem byteLimits_eq (c : Cfg) (mode : SnapMode) :
    byteLimits c mode =
      clockLimits (4 + tagged mode 6) ++ (schedLimits (32 + tagged mode 12) c.frameskipMax ++
        ([(42 + tagged mode 16 + 1, 1)] ++ ((channelLimits (44 + tagged mode 20) ++
          (channelLimits (44 + tagged mode 20 + 16) ++ channelLimits (44 + tagged mode 20 + 32))) ++
        (sasiLimits (92 + tagged mode 25) ++ (rtcLimits (375 + 2 * c.numFdd + tagged mode 33) ++
          [(398 + 2 * c.numFdd + tagged mode 41, 1)]))))) :=
  rfl

/-- 46_snapshot R235 (c), component by component. -/
theorem snapshotFields_iff {c : Cfg} {mode : SnapMode} {buf : List Byte} :
    SnapshotFields c mode buf ↔
      LimitsHold buf (clockLimits (4 + tagged mode 6)) ∧
        LimitsHold buf (schedLimits (32 + tagged mode 12) c.frameskipMax) ∧
        LimitsHold buf [(42 + tagged mode 16 + 1, 1)] ∧
        (∀ ch : Fin 3, LimitsHold buf (channelLimits (44 + tagged mode 20 + 16 * ch.val)) ∧
          (bufferByte buf (44 + tagged mode 20 + 16 * ch.val + 8) = 1 →
            bufferByte buf (44 + tagged mode 20 + 16 * ch.val + 6) ≠ 0 ∨
              bufferByte buf (44 + tagged mode 20 + 16 * ch.val + 7) ≠ 0)) ∧
        (LimitsHold buf (sasiLimits (92 + tagged mode 25)) ∧
          bufferByte buf (92 + tagged mode 25) ∈ [0, 1, 2, 3, 4, 5, 9, 10] ∧
            (bufferByte buf (92 + tagged mode 25 + 1) ≤ 7 ∨ bufferByte buf (92 + tagged mode 25 + 1) = 0x7F)) ∧
        (∀ i, i < 2 * c.numFdd → bufferByte buf (375 + tagged mode 29 + i) ≤ 1) ∧
        LimitsHold buf (rtcLimits (375 + 2 * c.numFdd + tagged mode 33)) ∧
        bufferByte buf (398 + 2 * c.numFdd + tagged mode 41) ≤ 1 := by
  have hplace (a b k : Nat) : a + k + b = a + b + k := Nat.add_right_comm a k b
  have hlimits : (∀ p ∈ byteLimits c mode, bufferByte buf p.1 ≤ p.2) ↔ LimitsHold buf (byteLimits c mode) := Iff.rfl
  have hchannels : (LimitsHold buf (channelLimits (44 + tagged mode 20)) ∧
      LimitsHold buf (channelLimits (44 + tagged mode 20 + 16)) ∧
        LimitsHold buf (channelLimits (44 + tagged mode 20 + 32))) ↔
      ∀ ch : Fin 3, LimitsHold buf (channelLimits (44 + tagged mode 20 + 16 * ch.val)) := by
    simp [Fin.forall_fin_succ]
  have hch (k : Nat) (ch : Fin 3) : 44 + tagged mode 20 + 16 * ch.val + k = 44 + k + tagged mode 20 + 16 * ch.val := by
    omega
  rw [SnapshotFields, hlimits, byteLimits_eq]
  simp only [limitsHold_append, forall_and, hch, hplace _ 1, limitsHold_cons, limitsHold_nil, and_true]
  grind

/-- The buffers of the stream's size in which the blocks of a snapshot stand that `VALID` accepts. -/
theorem exists_placed_iff {c : Cfg} {mode : SnapMode} {buf : List Byte} (hlen : buf.length = streamSize c mode) :
    (∃ n : Snapshot, n.Fits c ∧ n.valid c = true ∧ n.Placed c mode buf) ↔
      (mode = .durable → SnapshotNames c buf) ∧ SnapshotFields c mode buf := by
  have htags : tagged mode 6 ≤ tagged mode 50 ∧ tagged mode 12 ≤ tagged mode 50 ∧ tagged mode 16 ≤ tagged mode 50 ∧
      tagged mode 20 ≤ tagged mode 50 ∧ tagged mode 25 ≤ tagged mode 50 ∧ tagged mode 29 ≤ tagged mode 50 ∧
      tagged mode 33 ≤ tagged mode 50 ∧ tagged mode 41 ≤ tagged mode 50 ∧ tagged mode 46 ≤ tagged mode 50 := by
    cases mode <;> decide
  rw [streamSize_eq] at hlen
  have hclk := clock_limits_iff (buf := buf) (o := 4 + tagged mode 6) (by omega)
  have hsched := sched_limits_iff (buf := buf) (o := 32 + tagged mode 12) (by omega)
    (m := c.frameskipMax)
  have hpend := pend_limits_iff (buf := buf) (o := 42 + tagged mode 16) (by omega)
  have hch (ch : Fin 3) := channel_limits_iff (buf := buf) (o := 44 + tagged mode 20 + 16 * ch.val)
    (by omega)
  have hsasi := sasi_limits_iff (buf := buf) (o := 92 + tagged mode 25) (by omega)
  have hfdd := flags_limits_iff (buf := buf) (o := 375 + tagged mode 29) (n := c.numFdd)
    (by omega)
  have hrtc := rtc_limits_iff (buf := buf) (o := 375 + 2 * c.numFdd + tagged mode 33)
    (by omega)
  have hwe := flag_limits_iff (buf := buf) (o := 398 + 2 * c.numFdd + tagged mode 41)
    (by omega)
  rw [snapshotFields_iff, ← hclk, ← hsched, ← hpend, ← hsasi, ← hfdd, ← hrtc, ← hwe]
  simp only [← hch]
  constructor
  · rintro ⟨n, hfits, hvalid, hplaced⟩
    obtain ⟨⟨hline, hskipq⟩, hchannels, hsasiValid⟩ := (Snapshot.valid_iff _ _).1 hvalid
    exact ⟨hplaced.names, ⟨_, hline, hplaced.clk⟩, ⟨_, hfits.seq, hskipq, hplaced.sched⟩, ⟨_, hplaced.pend⟩,
      fun ch => ⟨_, hchannels ch, stands_putDma_iff.1 hplaced.dma ch⟩, ⟨_, hsasiValid, hplaced.sasi⟩,
      ⟨_, hfits.drives, hplaced.fdd⟩, ⟨_, hplaced.rtc⟩, ⟨_, hplaced.sramWe⟩⟩
  · rintro ⟨hnames, ⟨clk, hline, hclk⟩, ⟨sched, hseq, hskipq, hsched⟩, ⟨pend, hpend⟩, hchannels,
      ⟨sasi, hsasiValid, hsasi⟩, ⟨fdd, hdrives, hfdd⟩, ⟨rtc, hrtc⟩, ⟨sramWe, hsramWe⟩⟩
    choose dma hcount hdma using hchannels
    obtain ⟨sram, hsramWf, hsram⟩ := exists_memory (buf := buf) (o := 399 + 2 * c.numFdd + tagged mode 46)
      (n := sramSize) (by rw [sramSize]; omega)
    obtain ⟨ram, hramWf, hram⟩ := exists_memory (buf := buf) (o := 16783 + 2 * c.numFdd + tagged mode 50)
      (n := c.ramSize) (by omega)
    have hget (ch : Fin 3) : #v[dma 0, dma 1, dma 2][ch.val] = dma ch := by fin_cases ch <;> rfl
    refine ⟨{ clk, sched, pend, dma := #v[dma 0, dma 1, dma 2], sasi, fdd, rtc, sramWe, sram, ram },
      ⟨hsramWf, hramWf, hdrives, hseq⟩,
      (Snapshot.valid_iff _ _).2 ⟨⟨hline, hskipq⟩, fun ch => ?_, hsasiValid⟩,
      ⟨hnames, hclk, hsched, hpend, stands_putDma_iff.2 fun ch => ?_, hsasi, hfdd, hrtc, hsramWe, hsram, hram⟩⟩
    · rw [hget]
      exact hcount ch
    · rw [hget]
      exact hdma ch

/-- 46_snapshot R235: `VALID` said of the bytes is `VALID` as the port computes it. -/
theorem snapshotValid_iff {c : Cfg} {mode : SnapMode} {buf : List Byte} :
    SnapshotValid c mode buf ↔ ∃ n, parseSnapshot c mode buf = some n := by
  have hplaced (n : Snapshot) : parseSnapshot c mode buf = some n ↔
      SnapshotLength c mode buf ∧ n.Fits c ∧ n.valid c = true ∧ n.Placed c mode buf := by
    rw [parseSnapshot_eq_some]
    constructor
    · rintro ⟨hlen, hstands, hfits, hvalid⟩
      exact ⟨hlen, hfits, hvalid, (stands_stream_iff hfits.drives).1 hstands⟩
    · rintro ⟨hlen, hfits, hvalid, hplaced⟩
      exact ⟨hlen, (stands_stream_iff hfits.drives).2 hplaced, hfits, hvalid⟩
  simp only [SnapshotValid, hplaced, exists_and_left]
  refine and_congr_right fun hlen => ?_
  rw [exists_placed_iff (hlen.1.trans (streamSize_eq c mode).symm)]

/-! ### The buffer of a snapshot -/

/-- A buffer of the stated length in which the blocks of a snapshot stand is the length word and the blocks. -/
theorem eq_lengthWord_append {c : Cfg} {mode : SnapMode} {buf : List Byte} {n : Snapshot}
    (hlen : SnapshotLength c mode buf) (hdrives : n.fdd.length = c.numFdd) (h : Stands buf 4 (n.stream c mode)) :
    buf = lengthWord (streamSize c mode) ++ n.stream c mode := by
  obtain ⟨hsize, hvalue⟩ := hlen
  rw [← streamSize_eq] at hsize
  have hstream := length_stream hdrives mode
  have hblocks : n.stream c mode = buf.drop 4 := h.eq_of_length (by rw [List.length_drop]; omega)
  have hword : (buf.take 4).length = 4 := by rw [List.length_take]; omega
  have hstands : Stands buf 0 (buf.take 4) := List.take_prefix 4 buf
  have hwordValue : beValue (buf.take 4) = streamSize c mode := by
    rw [← hsize, ← hvalue, ← hstands.value, hword]
  have hlt : streamSize c mode < 2 ^ 32 := by
    have := beValue_lt (buf.take 4)
    rw [hword, hwordValue] at this
    omega
  have hbytes := beBytes_beValue (buf.take 4)
  rw [hword, hwordValue] at hbytes
  rw [hblocks, lengthWord, if_pos hlt, hbytes, List.take_append_drop]

theorem State.snapshot_restore {s : State} {n : Snapshot} (h : s.fdd.length = n.fdd.length) :
    (s.restore n).snapshot = n := by
  have hflags : (s.restore n).snapshot.fdd = n.fdd :=
    List.ext_getElem (by simp [State.snapshot, State.restore, h]) fun i hi hi' => by
      simp [State.snapshot, State.restore]
  calc (s.restore n).snapshot = { n with fdd := (s.restore n).snapshot.fdd } := rfl
    _ = n := by rw [hflags]

/-- Every drive that is there after a `LOAD` keeps its image handle (46_snapshot R231). -/
theorem State.restore_image (s : State) (n : Snapshot) (d : Nat) :
    ((s.restore n).fdd[d]?).map Fdd.image =
      if d < (s.restore n).fdd.length then (s.fdd[d]?).map Fdd.image else none := by
  have hzip : (s.restore n).fdd =
      List.zipWith (fun f g => { f with inserted := g.1, reading := g.2 }) s.fdd n.fdd := rfl
  split
  · rename_i hd
    rw [hzip, List.length_zipWith, Nat.lt_min] at hd
    obtain ⟨hs, hn⟩ := hd
    simp [hzip, hs, hn]
  · rename_i hd
    rw [List.getElem?_eq_none (Nat.le_of_not_lt hd), Option.map_none]

/-! ### The statement -/

/-- An accepted buffer: the rows of Table S are set to what it encodes, so that `SAVE` answers it again. -/
theorem load_of_snapshotValid {s : State} {mode : SnapMode} {buf : List Byte} (hready : s.hostReady = true)
    (h : SnapshotValid s.cfg mode buf) :
    ∃ n : Snapshot, n.Fits s.cfg ∧ n.valid s.cfg = true ∧
      exec (.load mode buf) s = .next ((s.restore n).returning .ok) ∧
      (s.fdd.length = s.cfg.numFdd →
        exec (.save mode) ((s.restore n).returning .ok) = .next ((s.restore n).returning (.buffer buf))) := by
  obtain ⟨n, hn⟩ := snapshotValid_iff.1 h
  obtain ⟨hlen, hstands, hfits, hvalid⟩ := parseSnapshot_eq_some.1 hn
  refine ⟨n, hfits, hvalid, exec_load_of_some hready hn, fun hdrives => ?_⟩
  obtain ⟨halive, -⟩ := Bool.and_eq_true_iff.1 hready
  have hready' : ((s.restore n).returning .ok).hostReady = true :=
    Bool.and_eq_true_iff.2 ⟨halive, beq_iff_eq.2 hfits.seq⟩
  have hsaved : ((s.restore n).returning .ok).saved mode = buf :=
    calc ((s.restore n).returning .ok).saved mode
        = lengthWord (streamSize s.cfg mode) ++ (s.restore n).snapshot.stream s.cfg mode := State.saved_eq _ _
      _ = lengthWord (streamSize s.cfg mode) ++ n.stream s.cfg mode := by
          rw [State.snapshot_restore (hdrives.trans hfits.drives.symm)]
      _ = buf := (eq_lengthWord_append hlen hfits.drives hstands).symm
  rw [exec_save hready', hsaved]
  rfl

theorem load_of_not_snapshotValid {s : State} {mode : SnapMode} {buf : List Byte} (hready : s.hostReady = true)
    (h : ¬SnapshotValid s.cfg mode buf) : exec (.load mode buf) s = .next (s.returning .stateIntegrityError) :=
  exec_load_of_none hready (Option.eq_none_iff_forall_ne_some.2 fun n hn => h (snapshotValid_iff.2 ⟨n, hn⟩))

/-- The streams of the two modes have different lengths (30_encoding R85). -/
theorem streamSize_ne {c : Cfg} {mode other : SnapMode} (h : other ≠ mode) :
    streamSize c other ≠ streamSize c mode := by
  cases mode <;> cases other <;> simp_all [streamSize]

/-- Settles O58: a buffer is parsed exactly where its bytes are valid, and what is parsed is what `SAVE` wrote. -/
theorem loadIsAllOrNothing : Obligations.LoadIsAllOrNothing := by
  intro s mode buf hready
  have hsize (m : SnapMode) : 16783 + 2 * s.cfg.numFdd + s.cfg.ramSize + (if m = .durable then 50 else 0) =
      streamSize s.cfg m := by cases m <;> rfl
  have hother {b : List Byte} (h : b.length ≠ streamSize s.cfg mode) :
      exec (.load mode b) s = .next (s.returning .stateIntegrityError) :=
    load_of_not_snapshotValid hready fun hvalid => h (hvalid.1.1.trans (streamSize_eq _ _).symm)
  refine ⟨load_of_not_snapshotValid hready, fun h => ?_, fun h => hother (hsize mode ▸ h),
    fun other b hne hdrives hsave => ?_⟩
  · obtain ⟨n, hfits, hvalid, hload, hsave⟩ := load_of_snapshotValid hready h
    obtain ⟨⟨hline, hskipq⟩, hchannels, hsasi⟩ := (Snapshot.valid_iff _ _).1 hvalid
    obtain ⟨hcmdptr, hbufptr, hsenseptr, hvptr, hdevice⟩ := (Sasi.valid_iff _).1 hsasi
    exact ⟨_, hload, rfl, hsave, s.restore_image n, hfits.seq, hline, hskipq, hchannels, hcmdptr, hbufptr, hsenseptr,
      hvptr, hdevice⟩
  · rw [exec_save hready] at hsave
    have hb : s.saved other = b := by
      injection hsave with hstate
      injection congrArg State.result hstate
    rw [← hb]
    refine hother ?_
    rw [length_saved hdrives]
    exact streamSize_ne hne

end Sys2Proof.Machine
end

section
/-! No operation looks at what went out before it, and a vector follows from the block's state: O60 (46_snapshot R234,
42_interrupt R134, log 9, log 10). -/

namespace Sys2Proof.Machine

/-! ### Outcomes after a longer past -/

/-- The outcome with more sent out before it; what the operation itself returned stays. -/
def outcomeAfter (p : Past) : Host.Outcome State Fault Refusal → Host.Outcome State Fault Refusal
  | .next t => .next { t with emitted := t.emitted ++ p.emitted, calls := t.calls ++ p.calls }
  | .fault r => .fault r
  | .refused r => .refused r

/-- `o'` is the outcome `o` with the past `p` before it. -/
def SameAfter (p : Past) (o o' : Host.Outcome State Fault Refusal) : Prop := o' = outcomeAfter p o

section
variable {p : Past} {s : State} {k k' l l' : Host.Outcome State Fault Refusal}

theorem SameAfter.refused (r : Refusal) : SameAfter p (.refused r) (.refused r) := rfl

theorem SameAfter.fault (r : Fault) : SameAfter p (.fault r) (.fault r) := rfl

theorem SameAfter.completes {u u' : State} (h : u' = u.withPast p) (r : Result) :
    SameAfter p (completes u r) (completes u' r) := by
  subst h
  rfl

/-- An operation that returns a part of what it computed. -/
theorem SameAfter.answer {α : Type} {q q' : α × State} (h : q' = (q.1, q.2.withPast p)) (f : α → Result) :
    SameAfter p (Machine.completes q.2 (f q.1)) (Machine.completes q'.2 (f q'.1)) := by
  subst h
  rfl

theorem SameAfter.ite {c : Prop} [Decidable c] (hk : SameAfter p k k') (hl : SameAfter p l l') :
    SameAfter p (if c then k else l) (if c then k' else l') := by
  split
  · exact hk
  · exact hl

theorem SameAfter.inContext (h : SameAfter p k k') : SameAfter p (inContext s k) (inContext (s.withPast p) k') :=
  .ite h (.refused _)

theorem SameAfter.betweenFrames (h : SameAfter p k k') :
    SameAfter p (betweenFrames s k) (betweenFrames (s.withPast p) k') :=
  .inContext (.ite h (.refused _))

theorem SameAfter.inMode {mode : BitVec 8} {f f' : VideoMode → Host.Outcome State Fault Refusal}
    (h : ∀ m, SameAfter p (f m) (f' m)) : SameAfter p (inMode s mode f) (inMode (s.withPast p) mode f') := by
  unfold Machine.inMode
  rw [State.withPast_cfg]
  split
  · exact h _
  · exact .refused _

/-- An operation of an existing DMA channel; channel 3 does nothing (U20, log 26). -/
theorem State.onChannel_withPast (s : State) (c : BitVec 2) {f f' : Fin 3 → State}
    (h : ∀ ch, f' ch = (f ch).withPast p) :
    (match channelOf c with | some ch => f' ch | none => s.withPast p) =
      (match channelOf c with | some ch => f ch | none => s).withPast p := by
  cases channelOf c with
  | none => rfl
  | some ch => exact h ch

end

theorem State.requestId_withPast (s : State) (p : Past) (id : BitVec 4) :
    (s.withPast p).requestId id = (s.requestId id).withPast p := by
  unfold State.requestId
  cases Src.ofId id <;> rfl

theorem State.runBlock_withPast (s : State) (p : Past) (opcode : Byte) (b : Cdb) (op : CmdOp) :
    ((s.withPast p).withBlock opcode b).runCommand op = ((s.withBlock opcode b).runCommand op).withPast p :=
  State.runCommand_withPast (s.withBlock opcode b) p op

theorem State.sasiExecute_withPast (s : State) (p : Past) :
    (s.withPast p).sasiExecute = s.sasiExecute.withPast p :=
  State.runCommand_withPast s.latchUnit p _

theorem sameAfter_execRunFrame (s : State) (p : Past) :
    SameAfter p (execRunFrame s) (execRunFrame (s.withPast p)) := by
  refine .betweenFrames (.inMode fun m => ?_)
  have hloop := State.frameLoop_withPast m (s.frameStart s.nextVideoMode m).frameBound
    (s.frameStart s.nextVideoMode m) p
  have hstart : (s.withPast p).frameStart (s.withPast p).nextVideoMode m =
      (s.frameStart s.nextVideoMode m).withPast p := rfl
  have hbound (t : State) : (t.withPast p).frameBound = t.frameBound := rfl
  rw [hstart, hbound, hloop]
  cases State.frameLoop m (s.frameStart s.nextVideoMode m).frameBound (s.frameStart s.nextVideoMode m) with
  | none => exact .fault _
  | some t => exact .completes rfl _

theorem sameAfter_execLoad (s : State) (p : Past) (mode : SnapMode) (buf : List Byte) :
    SameAfter p (execLoad mode buf s) (execLoad mode buf (s.withPast p)) := by
  refine .betweenFrames ?_
  rw [State.withPast_cfg]
  cases parseSnapshot s.cfg mode buf with
  | none => exact .completes rfl _
  | some n => exact .completes rfl _

/-! ### Every operation -/

theorem exec_withPast (i : Instr) (s : State) (p : Past) : SameAfter p (exec i s) (exec i (s.withPast p)) := by
  cases i with
  | powerOn c ramInit sramInit =>
    exact .ite (.refused _) (.ite (.completes rfl _) (.ite (.completes rfl _) (.ite (.completes rfl _) (.refused _))))
  | shutdown => exact .betweenFrames (.completes rfl _)
  | reset => exact .betweenFrames (.completes rfl _)
  | runFrame => exact sameAfter_execRunFrame s p
  | save mode => exact .betweenFrames (.completes rfl _)
  | load mode buf => exact sameAfter_execLoad s p mode buf
  | hostBusRd a => exact .betweenFrames (.answer (s.busRd8_withPast p a) .byte)
  | hostBusWr a v => exact .betweenFrames (.completes (s.busWr8_withPast p a v) _)
  | fddInsert d h => exact .betweenFrames (.completes rfl _)
  | fddEject d => exact .betweenFrames (.completes rfl _)
  | fddGetImage d => exact .betweenFrames (.completes rfl _)
  | fddSetImage d h => exact .betweenFrames (.completes rfl _)
  | fddIsReading d => exact .betweenFrames (.completes rfl _)
  | busRd8 a => exact .inContext (.answer (s.busRd8_withPast p a) .byte)
  | busWr8 a v => exact .inContext (.completes (s.busWr8_withPast p a v) _)
  | busRd16 a => exact .inContext (.answer (s.busRd16_withPast p a) .half)
  | busWr16 a v => exact .inContext (.completes (s.busWr16_withPast p a v) _)
  | busRd32 a => exact .inContext (.answer (s.busRd32_withPast p a) .word)
  | busWr32 a v => exact .inContext (.completes (s.busWr32_withPast p a v) _)
  | sasiDataRd => exact .inContext (.answer (s.sasiDataRd_withPast p) .byte)
  | sasiDataWr v => exact .inContext (.completes (s.sasiDataWr_withPast p v) _)
  | sasiStatusRd => exact .inContext (.completes rfl _)
  | sasiAckselWr v => exact .inContext (.completes (s.sasiAcksel_withPast p) _)
  | sasiResetWr v => exact .inContext (.completes rfl _)
  | sasiSelectWr v => exact .inContext (.completes (s.sasiSelect_withPast p v) _)
  | sysportSramweWr v => exact .inContext (.completes rfl _)
  | rtcRegRd a => exact .inContext (.answer (s.rtcRead_withPast p a) .byte)
  | rtcRegWr a v => exact .inContext (.completes rfl _)
  | ramRd a => exact .inContext (.completes rfl _)
  | ramWr a v => exact .inContext (.completes (s.ramWrite_withPast p a v) _)
  | romRd a => exact .inContext (.completes rfl _)
  | scsiromRd a => exact .inContext (.completes rfl _)
  | sramRd a => exact .inContext (.completes rfl _)
  | sramWr a v => exact .inContext (.completes (s.sramWrite_withPast p a v) _)
  | unmappedRd a => exact .inContext (.completes rfl _)
  | unmappedWr a v => exact .inContext (.completes rfl _)
  | extRd a => exact .inContext (.answer (s.extRead_withPast p a) .byte)
  | extWr a v => exact .inContext (.completes (s.extWrite_withPast p a v) _)
  | sasiCmdbyte v => exact .inContext (.completes (s.cmdbyte_withPast p v) _)
  | sasiDataout v => exact .inContext (.completes (s.dataout_withPast p v) _)
  | sasiVendorbyte v => exact .inContext (.completes (s.vendorbyte_withPast p) _)
  | sasiViolationWr v => exact .inContext (.completes rfl _)
  | sasiNopWr v => exact .inContext (.completes rfl _)
  | sasiDatain => exact .inContext (.completes (s.datain_withPast p) _)
  | sasiStatusbyte => exact .inContext (.completes rfl _)
  | sasiMsgbyte => exact .inContext (.completes rfl _)
  | sasiSensebyte => exact .inContext (.completes (s.sensebyte_withPast p) _)
  | sasiViolationRd => exact .inContext (.completes rfl _)
  | sasiNopRd => exact .inContext (.completes rfl _)
  | sasiCmdTestReady b => exact .inContext (.completes (s.runBlock_withPast p _ b .testReady) _)
  | sasiCmdRecalibrate b => exact .inContext (.completes (s.runBlock_withPast p _ b .recalibrate) _)
  | sasiCmdRequestSense b => exact .inContext (.completes (s.runBlock_withPast p _ b .requestSense) _)
  | sasiCmdFormat b => exact .inContext (.completes (s.runBlock_withPast p _ b .format) _)
  | sasiCmdRead b => exact .inContext (.completes (s.runBlock_withPast p _ b .read) _)
  | sasiCmdWrite b => exact .inContext (.completes (s.runBlock_withPast p _ b .write) _)
  | sasiCmdSeek b => exact .inContext (.completes (s.runBlock_withPast p _ b .seek) _)
  | sasiCmdVendorC2 b => exact .inContext (.completes (s.runBlock_withPast p _ b .vendorC2) _)
  | sasiCmdUnsupported op b => exact .inContext (.completes (s.runBlock_withPast p op b .unsupported) _)
  | frameStart => exact .inContext (.inMode fun m => .completes rfl _)
  | lineStart => exact .inContext (.inMode fun m => .completes (s.lineStart_withPast p m) _)
  | slice => exact .inContext (.ite (.completes (s.slice_withPast p) _) (.refused _))
  | lineEnd => exact .inContext (.completes (s.lineEnd_withPast p) _)
  | frameEnd => exact .inContext (.inMode fun m => .completes (s.frameEnd_withPast p m) _)
  | irqRequest id => exact .inContext (.completes (s.requestId_withPast p id) _)
  | irqResolve => exact .inContext (.answer (s.resolve_withPast p) .vector)
  | dmaStart c src dst n ss ds => exact .inContext (.completes (s.dmaStart_withPast p c src dst n ss ds) _)
  | dmaStep c used =>
    exact .inContext (.completes (s.onChannel_withPast c fun ch => s.dmaStep_withPast p ch used.toNat) _)
  | dmaXfer c => exact .inContext (.completes (s.onChannel_withPast c fun ch => s.dmaXfer_withPast p ch) _)
  | dmaComplete c => exact .inContext (.completes (s.onChannel_withPast c fun ch => s.completeChannel_withPast p ch) _)
  | fastclrRequest => exact .inContext (.completes rfl _)
  | fddReadSector d lba => exact .inContext (.answer (s.fddReadSector_withPast p d lba) .bytes)
  | fddWriteSector d lba bs => exact .inContext (.answer (s.fddWriteSector_withPast p d lba bs) .succeeded)
  | timersTick used => exact .inContext (.completes (s.timersTick_withPast p used.toNat) _)
  | rtcTick used => exact .inContext (.completes (s.rtcTick_withPast p used.toNat) _)
  | sasiExecute => exact .inContext (.completes (s.sasiExecute_withPast p) _)
  | sasiEnterStatus => exact .inContext (.completes rfl _)
  | imgRead h off n => exact .inContext (.completes rfl _)
  | imgWrite h off bs => exact .inContext (.answer (s.imgWrite_withPast p h off bs) .succeeded)
  | imgOk h off n => exact .inContext (.completes rfl _)
  | fastclrResolve =>
    exact .inContext (.ite (.inMode fun m => .completes (s.fastclrResolve_withPast p m) _)
      (.completes (s.fastclrCounted_withPast p) _))
  | frameskipAdapt ms => exact .inContext (.inMode fun m => .completes (s.frameskipAdapt_withPast p m ms) _)

/-! ### Resolution and the block's state -/

/-- 42_interrupt R134: what is delivered and what stays pending follow from the block's state and the configuration. -/
theorem State.resolve_of_block_eq {s t : State} (hblock : s.block = t.block) (hcfg : s.cfg = t.cfg) :
    s.resolve.1 = t.resolve.1 ∧ s.resolve.2.block = t.resolve.2.block := by
  have hpend : s.pend = t.pend := congrArg BlockState.pend hblock
  have hvector (src : Src) : s.vector src = t.vector src := by rw [State.vector, State.vector, hcfg, hblock]
  have hpick : highestPending s.cfg s.pend = highestPending t.cfg t.pend := by rw [hcfg, hpend]
  cases ht : highestPending t.cfg t.pend with
  | none =>
    rw [State.resolve_of_none ht, State.resolve_of_none (hpick.trans ht)]
    exact ⟨rfl, hblock⟩
  | some src =>
    rw [State.resolve_of_some ht, State.resolve_of_some (hpick.trans ht), hvector, hpend]
    exact ⟨rfl, congrArg (fun b : BlockState => { b with pend := clearPending t.pend src }) hblock⟩

/-- Settles O60: every operation commutes with a longer past, and a resolution reads the block's state alone. -/
theorem operationsIgnoreThePast : Obligations.OperationsIgnoreThePast := by
  refine ⟨fun i s t e c r h => ?_, fun s t hs ht hblock hcfg => ?_⟩
  · exact (exec_withPast i s ⟨e, c, r⟩).trans (congrArg (outcomeAfter ⟨e, c, r⟩) h)
  · obtain ⟨hdelivered, hblock'⟩ := State.resolve_of_block_eq hblock hcfg
    exact ⟨_, _, exec_irqResolve hs, exec_irqResolve ht, congrArg Result.vector hdelivered, hblock'⟩

end Sys2Proof.Machine
end

section
/-! `POWER_ON`, `RESET` and `SHUTDOWN`: what each makes of the state, and O7, O12 and O13 (70_reset R270 to R273). -/

namespace Sys2Proof.Machine

/-! ### The state after power-on -/

/-- A memory that lists every address from `lo` on at which a function is not the unlisted byte. -/
theorem Memory.wfFrom_filterMap_range' (f : Nat → Byte) {size : Nat} (n lo : Nat) (h : lo + n ≤ size) :
    Memory.wfFrom Memory.unlisted size lo
      ((List.range' lo n).filterMap fun i => if f i = Memory.unlisted then none else some (i, f i)) = true := by
  induction n generalizing lo with
  | zero => rfl
  | succ n ih =>
    have htail := ih (lo + 1) (by omega)
    rw [List.range'_succ, List.filterMap_cons]
    split
    next => exact Memory.wfFrom_weaken (Nat.le_succ lo) htail
    next p hentry =>
      split at hentry
      · cases hentry
      · cases hentry
        exact Memory.wfFrom_cons.2 ⟨⟨Nat.le_refl lo, by omega⟩, ‹_›, htail⟩

/-- The image of 95_test_vectors section 2 lists exactly its bytes that are not 0. -/
theorem img0_wf : Memory.wf img0.size img0.bytes = true := by
  simp only [Memory.wf, img0, List.range_eq_range']
  exact Memory.wfFrom_filterMap_range' (fun i => BitVec.ofNat 8 (i % 256 + i / 256)) 1024 0 (Nat.le_refl 1024)

theorem cfgT_wf : cfgT.wf = true := by decide +kernel

/-- Settles O7: power-on with CFG_T (log 2) leaves a well-formed configuration, empty memories, the image IMG0 and
every row of Table S at its reset value. -/
theorem resetMeetsInvariant : Obligations.ResetMeetsInvariant := by
  refine ⟨⟨cfgT_wf, rfl, rfl, ?store, List.length_replicate, channels_reset, Sasi.valid_reset, Nat.zero_le _⟩,
    State.reset.lineInv_iff.2 (.of_idle rfl rfl)⟩
  case store =>
    intro p hp
    obtain rfl : p = (0, img0) := List.mem_singleton.1 hp
    exact img0_wf

/-! ### ROM images (60_exceptions R242) -/

theorem romPresent_iff {len : Nat} {r : Option Rom} : romPresent len r = true ↔ ∃ i, r = some i ∧ i.len = len := by
  cases r <;> simp [romPresent]

theorem romPresent_eq_false_iff {len : Nat} {r : Option Rom} :
    romPresent len r = false ↔ ∀ i, r = some i → i.len ≠ len := by
  rw [← Bool.not_eq_true, romPresent_iff]
  exact ⟨fun h i hi hlen => h ⟨i, hi, hlen⟩, fun h ⟨i, hi, hlen⟩ => h i hi hlen⟩

theorem Cfg.wf_iff {c : Cfg} : c.wf = true ↔ c.bootRomOk = true ∧ c.cgRomOk = true ∧ c.paramsWf = true := by
  rw [Cfg.wf, Bool.and_eq_true, Bool.and_eq_true, and_assoc]

/-! ### `POWER_ON` -/

section
variable {s : State} {c : Cfg} (ramInit sramInit : Memory)

/-- 70_reset R280: `POWER_ON` is an operation of the host too. -/
theorem exec_powerOn_of_inFrame (halive : s.alive = true) (hseq : s.sched.seq ≠ .idle) :
    exec (.powerOn c ramInit sramInit) s = .refused .frameInProgress := if_pos ⟨halive, hseq⟩

variable (hidle : s.alive = true → s.sched.seq = .idle)
include hidle

/-- 70_reset R271: without a boot ROM there is no context; the character ROM is then not looked at. -/
theorem exec_powerOn_of_bootRom_missing (hboot : c.bootRomOk = false) :
    exec (.powerOn c ramInit sramInit) s = .next (s.ended.returning (.configurationError .boot)) := by
  refine (if_neg fun ⟨halive, hseq⟩ => hseq (hidle halive)).trans ?_
  rw [hboot]
  rfl

theorem exec_powerOn_of_cgRom_missing (hboot : c.bootRomOk = true) (hcg : c.cgRomOk = false) :
    exec (.powerOn c ramInit sramInit) s = .next (s.ended.returning (.configurationError .cg)) := by
  refine (if_neg fun ⟨halive, hseq⟩ => hseq (hidle halive)).trans ?_
  rw [hboot, hcg]
  rfl

theorem exec_powerOn_of_paramsWf (hboot : c.bootRomOk = true) (hcg : c.cgRomOk = true) (hparams : c.paramsWf = true) :
    exec (.powerOn c ramInit sramInit) s = .next ((s.poweredOn c ramInit sramInit).returning .ok) := by
  refine (if_neg fun ⟨halive, hseq⟩ => hseq (hidle halive)).trans ?_
  rw [hboot, hcg, hparams]
  rfl

theorem exec_powerOn_of_not_paramsWf (hboot : c.bootRomOk = true) (hcg : c.cgRomOk = true)
    (hparams : c.paramsWf = false) : exec (.powerOn c ramInit sramInit) s = .refused .cfgIllFormed := by
  refine (if_neg fun ⟨halive, hseq⟩ => hseq (hidle halive)).trans ?_
  rw [hboot, hcg, hparams]
  rfl

end

/-- Settles O12: the boot ROM is looked for first, then the character ROM, then the parameters decide between the
context of R270 and the refusal. -/
theorem powerOnResetsEverything : Obligations.PowerOnResetsEverything := by
  intro c ramInit sramInit s hidle
  refine ⟨fun hboot => ?_, fun hboot hcg => ?_, fun hwf => ?_, exec_powerOn_of_not_paramsWf _ _ hidle⟩
  · exact exec_powerOn_of_bootRom_missing _ _ hidle (romPresent_eq_false_iff.2 hboot)
  · exact exec_powerOn_of_cgRom_missing _ _ hidle (romPresent_iff.2 hboot) (romPresent_eq_false_iff.2 hcg)
  · obtain ⟨hboot, hcg, hparams⟩ := Cfg.wf_iff.1 hwf
    exact exec_powerOn_of_paramsWf _ _ hidle hboot hcg hparams

/-! ### `RESET` and `SHUTDOWN` -/

theorem exec_reset {s : State} (h : s.hostReady = true) : exec .reset s = .next (s.wasReset.returning .none) :=
  betweenFrames_completes h _ _

theorem exec_shutdown {s : State} (h : s.hostReady = true) : exec .shutdown s = .next (s.ended.returning .none) :=
  betweenFrames_completes h _ _

/-- Settles O13: the two operations field by field. -/
theorem resetAndShutdown : Obligations.ResetAndShutdown := fun _ h => ⟨exec_reset h, exec_shutdown h⟩

end Sys2Proof.Machine
end

section
/-! When an operation is refused and when it completes, said of the ways the dispatch builds an outcome: O10 and O11
(70_reset R271, R280, R290, 60_exceptions R240). -/

namespace Sys2Proof.Machine

/-! ### Refusals -/

/-- 70_reset R271, R273: where there is no context nothing is performed. -/
theorem inContext_of_not_alive {s : State} (h : s.alive = false) (k : Host.Outcome State Fault Refusal) :
    inContext s k = .refused .noContext := by
  rw [inContext, h]
  rfl

/-- 70_reset R280: in the middle of a frame no operation of the host is performed. -/
theorem betweenFrames_of_inFrame {s : State} (halive : s.alive = true) (hseq : s.sched.seq ≠ .idle)
    (k : Host.Outcome State Fault Refusal) : betweenFrames s k = .refused .frameInProgress :=
  (if_pos halive).trans (if_neg hseq)

/-- `POWER_ON` is the only operation that does not need a context. -/
theorem exec_eq_inContext {i : Instr} (h : ∀ c r m, i ≠ .powerOn c r m) (s : State) :
    ∃ k, exec i s = inContext s k := by
  cases i with
  | powerOn c ramInit sramInit => exact absurd rfl (h c ramInit sramInit)
  | _ => exact ⟨_, rfl⟩

/-- Settles O11: every operation but `POWER_ON` asks for a context first, and each operation of the host then for
IDLE. -/
theorem outsideTheDomainRefused : Obligations.OutsideTheDomainRefused := by
  intro i s
  refine ⟨fun hi hdead => ?_, fun halive hseq hhost => ?_⟩
  · obtain ⟨k, hk⟩ := exec_eq_inContext hi s
    exact hk.trans (inContext_of_not_alive hdead k)
  · rcases hhost with ⟨c, ramInit, sramInit, rfl⟩ | rfl | rfl | rfl | ⟨_, rfl⟩ | ⟨_, _, rfl⟩ | ⟨_, rfl⟩ | ⟨_, _, rfl⟩ |
      ⟨_, _, rfl⟩ | ⟨_, rfl⟩ | ⟨_, rfl⟩ | ⟨_, _, rfl⟩ | ⟨_, rfl⟩
    · exact exec_powerOn_of_inFrame ramInit sramInit halive hseq
    all_goals exact betweenFrames_of_inFrame halive hseq _

/-! ### Completion -/

/-- The outcome is a next state. -/
def Completes (o : Host.Outcome State Fault Refusal) : Prop := ∃ t, o = .next t

section
variable {s : State} {k : Host.Outcome State Fault Refusal}

theorem Completes.completes (u : State) (r : Result) : Completes (completes u r) := ⟨_, rfl⟩

theorem Completes.inContext (h : s.alive = true) (hk : Completes k) : Completes (inContext s k) := by
  rwa [Machine.inContext, if_pos h]

theorem Completes.betweenFrames (h : s.hostReady = true) (hk : Completes k) : Completes (betweenFrames s k) := by
  obtain ⟨halive, hidle⟩ := Bool.and_eq_true_iff.1 h
  rw [betweenFrames_of_idle (eq_of_beq hidle)]
  exact hk.inContext halive

/-- 70_reset R276: an operation that needs the row of a video mode has it where the mode is defined. -/
theorem Completes.inMode {mode : BitVec 8} {f : VideoMode → Host.Outcome State Fault Refusal}
    (h : s.modeDefined mode = true) (hf : ∀ m, Completes (f m)) : Completes (inMode s mode f) := by
  obtain ⟨m, hm⟩ := Option.isSome_iff_exists.1 h
  rw [inMode_of_videoMode? hm]
  exact hf m

end

/-- 70_reset R270, R271: between frames `POWER_ON` answers, be it with ConfigurationError. -/
theorem Completes.powerOn {s : State} {c : Cfg} {ramInit sramInit : Memory}
    (h : Runnable (.powerOn c ramInit sramInit) s = true) : Completes (exec (.powerOn c ramInit sramInit) s) := by
  simp only [Runnable, Bool.and_eq_true, Bool.or_eq_true, Bool.not_eq_true', beq_iff_eq] at h
  obtain ⟨hready, hcfg⟩ := h
  have hidle : s.alive = true → s.sched.seq = .idle := fun halive =>
    hready.resolve_left (by rw [halive]; exact Bool.noConfusion)
  cases hboot : c.bootRomOk with
  | false => exact ⟨_, exec_powerOn_of_bootRom_missing _ _ hidle hboot⟩
  | true =>
    cases hcg : c.cgRomOk with
    | false => exact ⟨_, exec_powerOn_of_cgRom_missing _ _ hidle hboot hcg⟩
    | true =>
      have hparams : c.paramsWf = true := by simpa [hboot, hcg] using hcfg
      exact ⟨_, exec_powerOn_of_paramsWf _ _ hidle hboot hcg hparams⟩

/-- 70_reset R290: a frame within the bound of 10_state R32 comes to its end. -/
theorem Completes.runFrame {s : State} (h : Runnable .runFrame s = true) : Completes (exec .runFrame s) := by
  simp only [Runnable, Bool.and_eq_true] at h
  obtain ⟨⟨⟨hready, hwf⟩, hover⟩, hmode⟩ := h
  obtain ⟨m, hm⟩ := Option.isSome_iff_exists.1 hmode
  obtain ⟨_, _, t, _, _, _, hrun, _⟩ := runFrameCompletes s m hready hwf hover hm
  exact ⟨t, hrun⟩

/-- 60_exceptions R245: `LOAD` answers for a buffer it rejects as for one it accepts. -/
theorem Completes.load {s : State} (h : s.hostReady = true) (mode : SnapMode) (buf : List Byte) :
    Completes (exec (.load mode buf) s) := by
  cases hn : parseSnapshot s.cfg mode buf with
  | none => exact ⟨_, exec_load_of_none h hn⟩
  | some n => exact ⟨_, exec_load_of_some h hn⟩

/-- 41_scheduler R121: the mode matters only to a fast clear that is due. -/
theorem Completes.fastclrResolve {s : State} (h : Runnable .fastclrResolve s = true) :
    Completes (exec .fastclrResolve s) := by
  obtain ⟨halive, hdue⟩ := Bool.and_eq_true_iff.1 h
  cases hclear : s.sched.fastclrDue with
  | false => exact ⟨_, exec_fastclrResolve_of_not_due halive hclear⟩
  | true =>
    obtain ⟨m, hm⟩ := Option.isSome_iff_exists.1 (by simpa [hclear, State.modeDefined] using hdue)
    exact ⟨_, exec_fastclrResolve_of_mode halive hm⟩

/-- Settles O10: operation by operation, what `Runnable` asks is what the operation's meaning tests. The operations
not named need a context and nothing else. -/
theorem everyOperationCompletes : Obligations.EveryOperationCompletes := by
  intro i s h
  change Completes (exec i s)
  cases i with
  | powerOn c ramInit sramInit => exact .powerOn h
  | runFrame => exact .runFrame h
  | load mode buf => exact .load h mode buf
  | shutdown | reset | save _ | hostBusRd _ | hostBusWr _ _ | fddInsert _ _ | fddEject _ | fddGetImage _
  | fddSetImage _ _ | fddIsReading _ => exact .betweenFrames h (.completes _ _)
  | frameStart | lineStart | frameEnd | frameskipAdapt _ =>
    obtain ⟨halive, hmode⟩ := Bool.and_eq_true_iff.1 h
    exact .inContext halive (.inMode hmode fun _ => .completes _ _)
  | slice =>
    obtain ⟨halive, hdue⟩ := Bool.and_eq_true_iff.1 h
    exact ⟨_, exec_slice halive (of_decide_eq_true hdue)⟩
  | fastclrResolve => exact .fastclrResolve h
  | _ => exact .inContext h (.completes _ _)

end Sys2Proof.Machine
end
